-- ==== Sys2Proof/Word.lean ====
section
/-! DEFINITION. The words of the part: a byte of the host port or of the pointer link, and a 24-bit frame-memory
cell address (00_scope.md, section 0.8). -/

namespace Sys2Proof

/-- A byte that crosses the host port or the pointer link. -/
abbrev Byte := BitVec 8

/-- A frame-memory cell address, 0 to 16,777,215 (section 0.8); arithmetic on it wraps (R111). -/
abbrev Addr := BitVec 24

end Sys2Proof
end

