-- ==== Sys2Proof/Syntax.lean ====
section
/-! DEFINITION. The commands of the part: one constructor of `Instr` for each row of spec/opcode_table.json.
A command is one event of the part (00_scope.md, section 0.4): its operands are what the outside supplies at that
event (a line level, the levels sampled on SDI, the levels of a character on PRX, the data that frame memory returns), or an
order of events that the spec leaves open: which of two blocks takes a frame start first (R150), and how much of a cell has been
shifted when the event after it falls (R133). -/

namespace Sys2Proof

/-- The level of an active-low input line (section 0.8). SELECT is asserted while it is low. -/
inductive LineLevel where
  | asserted
  | released
deriving DecidableEq, Repr

/-- Which block takes a frame start first: R150 says that the commit notice and the pointer tick of one frame start
are separate events and that either may be taken first. -/
inductive FrameOrder where
  /-- CSU takes the frame start (its apply point and commit notice) before PU takes its tick. -/
  | csuFirst
  /-- PU takes its tick before CSU takes the frame start. -/
  | puFirst
deriving DecidableEq, Repr

/-- The eleven levels on PRX in which a character crosses the pin (R188), the first of them in bit 0: the start bit, the eight data
bits, the marker bit and the stop bit. `Machine.readCharacter` reads them. -/
abbrev PrxBits := BitVec 11

/-- Levels of SDI, one for each rising edge of SCLK at which HP samples it (R165), the first sampled first. -/
abbrev SdiBits := List Bool

/-- What the frame memory and character generator return for a cell (R105): the pattern on PDATA and the attribute byte on ADATA. -/
structure CellData where
  pdata : BitVec 16
  adata : Byte
deriving DecidableEq, Repr

/-- The commands. The rows in which a byte comes in at the host port carry the levels sampled on SDI since the last of them: HP holds
them until a byte is whole (R165), and the row's event comes with its eighth bit. For a request row that byte is the check byte:
the kind, the length and the parameters are the bytes that `requestByteReceived` brought before it, and a request is one event at
its owner "taken at the moment the check byte is received" (R170). The two rows of a reply carry no levels, since "HP makes no use of
what the host sends on SDI while the reply is shifted" (R171): they are the bits that are left of a byte. -/
inductive Instr where
  /-- POWER_ON: power is applied, with SELECT, GUARD and FALLBACK at these levels. -/
  | powerOn (select guard fallback : LineLevel)
  /-- RESET_ASSERT -/
  | resetAssert
  /-- RESET_RELEASE -/
  | resetRelease
  /-- GUARD_LINE_CHANGE: the GUARD line goes to this level. -/
  | guardLineChange (level : LineLevel)
  /-- FALLBACK_LINE_CHANGE: the FALLBACK line goes to this level. -/
  | fallbackLineChange (level : LineLevel)
  /-- SELECT_FALL -/
  | selectFall
  /-- SELECT_RISE -/
  | selectRise
  /-- REPLY_COMPLETE: the host clocks what is left of the reply check byte. -/
  | replyComplete
  /-- FRAMING_FAULT: the check byte of a request that fails R169 arrives. -/
  | framingFault (sdi : SdiBits)
  /-- CREATE -/
  | create (sdi : SdiBits)
  /-- AMEND -/
  | amend (sdi : SdiBits)
  /-- RETIRE -/
  | retire (sdi : SdiBits)
  /-- RESTACK -/
  | restack (sdi : SdiBits)
  /-- LOCK -/
  | lock (sdi : SdiBits)
  /-- PUBLISH -/
  | publish (sdi : SdiBits)
  /-- WITHDRAW -/
  | withdraw (sdi : SdiBits)
  /-- DISCARD -/
  | discard (sdi : SdiBits)
  /-- READ_OUTCOME -/
  | readOutcome (sdi : SdiBits)
  /-- READ_REGION -/
  | readRegion (sdi : SdiBits)
  /-- READ_STACK -/
  | readStack (sdi : SdiBits)
  /-- GUARD_ON -/
  | guardOn (sdi : SdiBits)
  /-- GUARD_OFF -/
  | guardOff (sdi : SdiBits)
  /-- SET_TIMING -/
  | setTiming (sdi : SdiBits)
  /-- READ_TIMING -/
  | readTiming (sdi : SdiBits)
  /-- START_SCAN -/
  | startScan (sdi : SdiBits)
  /-- STOP_SCAN -/
  | stopScan (sdi : SdiBits)
  /-- POINTER_SETTINGS -/
  | pointerSettings (sdi : SdiBits)
  /-- READ_TOUCH -/
  | readTouch (sdi : SdiBits)
  /-- PROBE -/
  | probe (sdi : SdiBits)
  /-- READ_STATUS -/
  | readStatus (sdi : SdiBits)
  /-- SET_NOTE_MASK -/
  | setNoteMask (sdi : SdiBits)
  /-- SOFT_RESET -/
  | softReset (sdi : SdiBits)
  /-- SOFT_RESET_ACTION -/
  | softResetAction
  /-- FRAME_START, with the order in which CSU and PU take it. -/
  | frameStart (order : FrameOrder)
  /-- POINTER_TICK -/
  | pointerTick
  /-- CONTACT_TIMEOUT -/
  | contactTimeout
  /-- LINE_START -/
  | lineStart
  /-- CELL_ISSUE, with what the frame memory returns for the cell issued, and how many of the cell's groups of
  four dots have been shifted when the next command of the queue is taken (R133; the whole cell, if it has no more). -/
  | cellIssue (data : CellData) (groups : Nat)
  /-- LINE_END -/
  | lineEnd
  /-- RETRACE_LINE -/
  | retraceLine
  /-- STOP_POINT -/
  | stopPoint
  /-- POINTER_LINK_FAULT: a character that the receiver does not keep, or that interrupts a report. -/
  | pointerLinkFault (line : PrxBits)
  /-- REPORT_DISCARDED: the character with the check byte of a report that is not taken arrives. -/
  | reportDiscarded (line : PrxBits)
  /-- CONTACT: the character with the check byte of a CONTACT report arrives. -/
  | contact (line : PrxBits)
  /-- LIFT: the character with the check byte of a LIFT report arrives. -/
  | lift (line : PrxBits)
  /-- POINTER_CHARACTER_KEPT: a character that joins or begins a report. -/
  | pointerCharacterKept (line : PrxBits)
  /-- REQUEST_BYTE_RECEIVED: a byte of a request other than its check byte. -/
  | requestByteReceived (sdi : SdiBits)
  /-- REPLY_BYTE_SHIFTED: the host clocks what is left of a byte of the reply other than its check byte. -/
  | replyByteShifted
deriving DecidableEq, Repr

end Sys2Proof
end

