-- ==== Sys2Proof/Decode.lean ====
section
/-! DEFINITION. The decoder over the rows of spec/opcode_table.json that give bits. The table gives no row any bits:
a command of this block is an event, not a word (log entry 2). The bytes of a request are decoded in
Machine/Operands.lean, from chapter 11. -/

namespace Sys2Proof

/-- The command a word spells by the table's bits: none, since no row of the table gives bits (log entry 2). -/
def decodeTableWord (_nbits _w : Nat) : Option Instr := none

end Sys2Proof
end

