-- ==== Sys2Proof/Config.lean ====
section
/-! DEFINITION. The values the spec leaves open, each an opaque function of the counter `freeReads` of State, so that nothing can
be proved of the value. The pins: R93 and R105 say what MADDR, RAST and FETCH carry for a cell, and
that FETCH is inactive elsewhere; they do not say what MADDR and RAST carry, nor the level of DOUT, while no cell is
issued and the scan was not reset (blanked columns, retrace lines, after a stop point; log entry 12). The place of a RESTACK
beside a ref that is RESERVED in the working copy: current by R5, and in no stacking order (log entry 4). -/

namespace Sys2Proof.Config

/-- What MADDR carries while no cell is issued. -/
opaque idleMaddr : Nat → BitVec 24

/-- What RAST carries while no cell is issued. -/
opaque idleRast : Nat → BitVec 5

/-- The level of DOUT while no dots are shifted. -/
opaque idleDout : Nat → BitVec 4

/-- Where in its band the target of a RESTACK goes whose ref is current and stands nowhere in the list: by the counter at the set's
evaluation, the target's byte, the ref's byte, and whether the position is ABOVE. One RESTACK sent twice in a set (R189) names one
place. -/
opaque unplacedRef : Nat → BitVec 8 → BitVec 8 → Bool → Nat

end Sys2Proof.Config
end

