-- ==== Sys2Proof/Machine/State.lean ====
section
/-! DEFINITION. The state of the part as plain data, block by block (00_scope.md, section 0.3), the reasons a command
can stop, and the state right after power-on. INVENTORY.md lists every field with its rule and its value after reset. -/

namespace Sys2Proof.Machine
open Sys2Proof

/-! ### Region records (chapter 1) -/

/-- A handle (R4): a slot number and a generation. Its byte is `Handle.toByte`. -/
structure Handle where
  slot : Fin 32
  gen : BitVec 3
deriving DecidableEq, Repr

/-- The class of a region (R7). -/
inductive RegionClass where
  | ordinary
  | telltale
deriving DecidableEq, Repr

/-- The content kind of a region (R11, R12). -/
inductive ContentKind where
  | text
  | bitmap
deriving DecidableEq, Repr

/-- The blink mode of a cursor (R14). -/
inductive BlinkMode where
  | steady
  | slow
  | fast
deriving DecidableEq, Repr

/-- The touch mode of a region (R15). -/
inductive TouchMode where
  | none
  | accept
  | block
deriving DecidableEq, Repr

/-- The geometry of a region (R10): the AMEND group GEOMETRY. -/
structure Rect where
  left : Nat
  top : Nat
  width : Nat
  height : Nat
deriving DecidableEq, Repr

/-- The source of a region (R11, R12): the AMEND group SOURCE. -/
structure Source where
  kind : ContentKind
  base : Addr
  stride : Nat
  cellHeight : Nat
  scroll : Nat
deriving DecidableEq, Repr

/-- The look of a region (R8, R13): the AMEND group LOOK. -/
structure Look where
  visible : Bool
  reverse : Bool
  blinkEnable : Bool
deriving DecidableEq, Repr

/-- A cursor part (R14): the AMEND group CURSOR, when present. -/
structure CursorPart where
  address : Addr
  firstRaster : Nat
  lastRaster : Nat
  mode : BlinkMode
deriving DecidableEq, Repr

/-- The fields of a region record (R6), but for the touch part, which `Slot` holds. -/
structure RegionRecord where
  cls : RegionClass
  locked : Bool
  rect : Rect
  source : Source
  look : Look
  cursor : Option CursorPart
  touchMode : TouchMode
deriving DecidableEq, Repr

/-- The states of a slot (R1). -/
inductive SlotState where
  | free
  | reserved
  | live
deriving DecidableEq, Repr

/-- A point in panel coordinates (section 0.8). -/
structure Point where
  x : Nat
  y : Nat
deriving DecidableEq, Repr

/-- The touch state of a touch part (R142). -/
inductive TouchState where
  | idle
  | pressed
  | pressedAway
deriving DecidableEq, Repr

/-- The news flags of a touch part (R142). -/
structure News where
  press : Bool
  release : Bool
  releaseAway : Bool
  cancel : Bool
deriving DecidableEq, Repr

/-- A touch part (R142), owned by PU. -/
structure TouchPart where
  state : TouchState
  press : Point
  last : Point
  activations : Nat
  news : News
deriving DecidableEq, Repr

/-- A slot of the region table (R1, R4): its state, generation and record, and the touch part that PU keeps for it. -/
structure Slot where
  state : SlotState
  gen : BitVec 3
  record : RegionRecord
  touch : Option TouchPart
deriving DecidableEq, Repr

/-- The thirty-two slots. -/
abbrev SlotTable := Vector Slot 32

/-- The state of the Region Table unit: the slots, the stacking order front first (R27), the guard-enable setting
(R68) and the recorded level of the GUARD line (R67). -/
structure Rgt where
  slots : SlotTable
  stack : List Handle
  guardEnable : Bool
  guardLine : LineLevel
deriving DecidableEq, Repr

/-! ### Change sets (chapter 3) -/

/-- The position of a RESTACK (R31). -/
inductive Position where
  | front
  | back
  | above (ref : Handle)
  | below (ref : Handle)
deriving DecidableEq, Repr

/-- An AMEND payload: the field group and its values (R16). -/
inductive Group where
  | geometry (r : Rect)
  | source (s : Source)
  | scroll (base : Addr) (offset : Nat)
  | look (l : Look)
  | cursor (c : Option CursorPart)
  | touch (m : TouchMode)
deriving DecidableEq, Repr

/-- The operation of a change record with its payload (R41). -/
inductive Operation where
  | create (d : RegionRecord)
  | amend (g : Group)
  | retire
  | restack (p : Position)
  | lock
deriving DecidableEq, Repr

/-- A change record (R41). -/
structure Change where
  index : Nat
  target : Handle
  op : Operation
deriving DecidableEq, Repr

/-- The state of the change set (R42). -/
inductive SetState where
  | opened
  | pending
deriving DecidableEq, Repr

/-- The failure codes of the outcome record (R62). -/
inductive FailCode where
  | stale
  | locked
  | guarded
  | band
  | range
deriving DecidableEq, Repr

/-- The result of the outcome record (R62); the failing index and code are present exactly when it is REJECTED. -/
inductive SetResult where
  | none
  | applied
  | rejected (index : Nat) (code : FailCode)
  | withdrawn
  | discarded
deriving DecidableEq, Repr

/-- The outcome record (R62). -/
structure OutcomeRecord where
  seq : BitVec 8
  result : SetResult
  count : Nat
deriving DecidableEq, Repr

/-- The state of the Change-Set Unit: the staging list (R40), the change-set state (R42), the sequence number (R43),
the outcome record (R62) and the outcome-unread flag (R63). -/
structure Csu where
  changes : List Change
  setState : SetState
  seq : BitVec 8
  outcome : OutcomeRecord
  unread : Bool
deriving DecidableEq, Repr

/-! ### Scan engine (chapter 5) -/

/-- The seven fields of the timing set (R80). -/
structure Timing where
  cellWidth : Nat
  totalColumns : Nat
  displayedColumns : Nat
  totalLines : Nat
  displayedLines : Nat
  fallbackBase : Addr
  fallbackStride : Nat
deriving DecidableEq, Repr

/-- The scan states (R85). -/
inductive ScanState where
  | stopped
  | running
  | stopping
deriving DecidableEq, Repr

/-- Where SE stands in the frame: what R88 calls the current line, with how far the frame has run. `currentLine`
reads the manual's current line from it (log entry 6). -/
inductive ScanPlace where
  /-- No frame: STOPPED, or START SCAN taken and its first frame start not yet raised. -/
  | outside
  /-- In a frame, before the line start of line y. -/
  | before (y : Nat)
  /-- From the line start of line y to its end. -/
  | inLine (y : Nat)
  /-- In the vertical retrace, with `passed` retrace lines gone by. -/
  | retrace (passed : Nat)
deriving DecidableEq, Repr

/-- Where the stop point of a STOP SCAN falls (R87). -/
inductive StopPlace where
  /-- At the end of the last displayed line of the current frame. -/
  | lastLineEnd
  /-- Where the next frame start would have been raised. -/
  | nextFrameStart
deriving DecidableEq, Repr

/-- The state of the Scan Engine: scan state (R85), timing set (R80) and timing-valid (R82), frame counter (R94), the
recorded FALLBACK level and the fallback-effective flag (R95), the place in the frame (R88), the stop point (R87), and
whether the frame start just raised is still to be taken by PU as its tick (R89; log entry 5). -/
structure Se where
  scan : ScanState
  timing : Timing
  timingValid : Bool
  frame : BitVec 6
  fallbackLine : LineLevel
  fallbackEffective : Bool
  place : ScanPlace
  stop : Option StopPlace
  tickOwed : Bool
deriving DecidableEq, Repr

/-! ### Line composer and cell output (chapters 6 and 7) -/

/-- The owner of a span (R99). -/
inductive Owner where
  | region (h : Handle)
  | background
  | fallback
deriving DecidableEq, Repr

/-- A span (R99): start column, last column and owner. -/
structure Span where
  start : Nat
  last : Nat
  owner : Owner
deriving DecidableEq, Repr

/-- The state of the Line Composer: the span list (R99), and the next column whose cell is to be issued (R104; the
model's record of how far the line has been issued, log entry 6). -/
structure Lc where
  spans : List Span
  column : Nat
deriving DecidableEq, Repr

/-- The owner kind handed to COU with a cell (R104). -/
inductive OwnerKind where
  | text
  | bitmap
  | background
  | fallback
deriving DecidableEq, Repr

/-- The cell COU holds (R119): the context handed by LC (R104) and the data returned for the cell (R105). -/
structure Cell where
  kind : OwnerKind
  fetched : Bool
  address : Addr
  raster : BitVec 5
  reverse : Bool
  blinkEnable : Bool
  cursor : Option CursorPart
  cellHeight : Nat
  pattern : BitVec 16
  attr : Byte
deriving DecidableEq, Repr

/-- The state of the Cell Output Unit: the cell being resolved, if it holds one (R119), and how many of its groups of four dots have
been shifted (R132, R133). -/
structure Cou where
  cell : Option Cell
  shifted : Nat
deriving DecidableEq, Repr

/-! ### Pointer unit (chapter 8) -/

/-- The receiver of the pointer link (R135), with the bytes it holds, first byte first. -/
inductive Receiver where
  | waiting
  | collecting (bytes : List Byte)
deriving DecidableEq, Repr

/-- The contact state with the capture record (R140). -/
inductive Contact where
  | up
  | captured (h : Handle)
  | unclaimed
deriving DecidableEq, Repr

/-- The causes of a cancellation (R149). -/
inductive CancelCause where
  | retired
  | hidden
  | touchOff
  | fallback
  | timeout
  | disabled
  | reset
deriving DecidableEq, Repr

/-- The state of the Pointer Unit but for the touch parts, which stand in the slots: the receiver (R135), the pointer
settings (R138), the contact state and capture record (R140), the silence count (R146) and the pointer status (R139).
The news set is read from the touch parts (R151; `newsSlots`). -/
structure Pu where
  receiver : Receiver
  enable : Bool
  timeout : Nat
  contact : Contact
  silence : Nat
  linkFault : Bool
  rangeFault : Bool
  lastCause : Option CancelCause
deriving DecidableEq, Repr

/-! ### Host port (chapter 10) -/

/-- What HP holds of a request in RECEIVING (R167): kind, length when it has arrived, the parameter bytes received so
far, and the CRC register (R168). -/
structure Frame where
  kind : Option Byte
  length : Option Byte
  params : List Byte
  crc : Byte
deriving DecidableEq, Repr

/-- The transaction state (R167). In REPLYING: the reply's bytes, how many have been sent, and whether the request
was SOFT RESET, whose reset acts when the reply ends (R180). -/
inductive TransState where
  | idle
  | receiving (f : Frame)
  | replying (reply : List Byte) (sent : Nat) (softReset : Bool)
  | draining
  | held
deriving DecidableEq, Repr

/-- The notification mask (R179). -/
structure NoteMask where
  news : Bool
  outcome : Bool
  fault : Bool
deriving DecidableEq, Repr

/-- The state of the Host Port: transaction state (R167), the bits sampled of the byte in progress (R165: the first sampled first;
their number is the bit count), the four port fault flags (R176), the notification mask
(R179), whether a soft reset's reply has ended and its reset is still to act (R180), and the levels of SELECT and
RESET. -/
structure Hp where
  trans : TransState
  bits : SdiBits
  cutFault : Bool
  checkFault : Bool
  lengthFault : Bool
  unknownFault : Bool
  mask : NoteMask
  softResetDue : Bool
  select : LineLevel
  resetLine : LineLevel
deriving DecidableEq, Repr

/-! ### Pins -/

/-- The outputs of the part (section 0.9). `note` is true while NOTE is asserted (R178). `sdo` is the levels
that SDO carried at the rising edges of SCLK in the byte in progress or, with none in progress, in the last one, the first
first (while RESET is held, in the last row; R183); none while SDO is not driven (R165). `maddr`, `rast` and `fetch` are as
LC last drove them (R104). `dout` is the level of DOUT; `dots` the groups of four dots shifted under DCLK by the last scan happening or reset, one
per DCLK, in order (R132). `lsync` and `fsync` say whether the last scan happening raised them (R93). -/
structure Pins where
  note : Bool
  sdo : Option (List Bool)
  maddr : Addr
  rast : BitVec 5
  fetch : Bool
  dout : BitVec 4
  dots : List (BitVec 4)
  lsync : Bool
  fsync : Bool
deriving DecidableEq, Repr

/-- The panel's column drivers as the pins drive them (R90, R93, R133): the groups shifted since the last line start,
not yet latched, and the line latched last. They stand outside the part; no command reads them (log entry 11). -/
structure Panel where
  shifted : List (BitVec 4)
  latched : List (BitVec 4)
deriving DecidableEq, Repr

/-! ### The state -/

/-- The state of the part, block by block, with the queue of commands that wait. `freeReads` is the MODEL's own
counter of the free values taken from Config (log entry 12). -/
structure State where
  rgt : Rgt
  csu : Csu
  se : Se
  lc : Lc
  cou : Cou
  pu : Pu
  hp : Hp
  pins : Pins
  panel : Panel
  freeReads : Nat
  pending : List Instr
deriving DecidableEq, Repr

/-- The faults of the part. There are none: every error the spec names is an answer to a request, a fault flag or an
outcome code, and the part goes on. -/
inductive Fault where
deriving DecidableEq, Repr

/-- Why a command has no next state. But for `notModelled`, each says that the queue presents, in this state, a row that
is not the event which comes about there: the rows of spec/opcode_table.json name events by what they turn out to be, and
the spec makes another row's event of it. Each is safe: the model stops, and the part never shows the event (log entry 3). -/
inductive Refusal where
  /-- The arm of exec has no meaning yet. Raised by exec only. Safe. -/
  | notModelled (mnemonic : String)
  /-- Raised by every row in which a byte comes in at the host port: with the levels it brings, more than eight bits have been
  sampled, and those after the eighth are of the next byte, which another row brings (R165). Safe. -/
  | bitsPastTheByte
  /-- Raised by the request rows and FRAMING_FAULT: HP is in RECEIVING but the next byte is not the check byte, or it
  is in REPLYING and a byte of the reply is next (R167, R169). Safe. -/
  | notAtCheckByte
  /-- Raised by the request rows: the frame whose check byte arrives carries another kind byte (R169). Safe. -/
  | frameOfOtherKind
  /-- Raised by FRAMING_FAULT: the frame passes every check of R169, so the request is taken instead. Safe. -/
  | frameNotFaulty
  /-- Raised by REQUEST_BYTE_RECEIVED: the next byte of the request is its check byte, or a reply is being shifted
  (R167, R171). Safe. -/
  | notAtRequestByte
  /-- Raised by REPLY_BYTE_SHIFTED: a request is being received, or only the reply check byte is left (R171, R172). Safe. -/
  | notAtReplyByte
  /-- Raised by REPLY_COMPLETE: no reply stands at its check byte (R172). Safe. -/
  | notAtReplyCheck
  /-- Raised by the scan rows while the scan is not STOPPED: R88 makes another happening the next one. Safe. -/
  | happeningOutOfPlace
  /-- Raised by POINTER_TICK and CONTACT_TIMEOUT while the scan is not STOPPED: PU has taken the tick of the last frame
  start already (R89, R146). Safe. -/
  | noTickOwed
  /-- Raised by CONTACT_TIMEOUT: the tick does not bring the silence count to the timeout (R146). Safe. -/
  | timeoutNotReached
  /-- Raised by POINTER_LINK_FAULT: the receiver keeps the character, or it completes a report (R135). Safe. -/
  | characterKept
  /-- Raised by POINTER_CHARACTER_KEPT: the receiver does not keep the character, or it interrupts or completes a
  report (R135). Safe. -/
  | characterNotKept
  /-- Raised by CONTACT, LIFT and REPORT_DISCARDED: the receiver does not hold four bytes of a report (R135). Safe. -/
  | noReportCompletes
  /-- Raised by CONTACT and LIFT: the completed report's kind byte is not the row's (R136). Safe. -/
  | reportOfOtherKind
  /-- Raised by REPORT_DISCARDED: the report passes every check and is taken (R136). Safe. -/
  | reportTaken
deriving DecidableEq, Repr

/-! ### After power-on -/

/-- The record of a FREE slot (section 1.7). -/
def RegionRecord.cleared : RegionRecord where
  cls := .ordinary
  locked := false
  rect := ⟨0, 0, 0, 0⟩
  source := ⟨.text, 0, 0, 1, 0⟩
  look := ⟨false, false, false⟩
  cursor := none
  touchMode := .none

/-- A FREE slot at a generation: the cleared record and no touch part (R1, section 1.7). -/
def Slot.cleared (gen : BitVec 3) : Slot := ⟨.free, gen, RegionRecord.cleared, none⟩

/-- RGT at power-on (R24, R39, R68) with the GUARD line at this level (R67). -/
def Rgt.powerOn (guard : LineLevel) : Rgt :=
  ⟨Vector.replicate 32 (Slot.cleared 0), [], false, guard⟩

/-- CSU at power-on (R64). -/
def Csu.powerOn : Csu := ⟨[], .opened, 0, ⟨0, .none, 0⟩, false⟩

/-- The timing set's power-on values (R82). -/
def Timing.powerOn : Timing := ⟨8, 0, 0, 0, 0, 0, 0⟩

/-- SE at power-on (R96) with the FALLBACK line at this level (R95). -/
def Se.powerOn (fallback : LineLevel) : Se :=
  ⟨.stopped, Timing.powerOn, false, 0, fallback, false, .outside, none, false⟩

/-- PU at power-on (R154). -/
def Pu.powerOn : Pu := ⟨.waiting, false, 8, .up, 0, false, false, none⟩

/-- HP at power-on (R182): IDLE while SELECT is high, HELD while it is low. The RESET line is released (log entry 9). -/
def Hp.powerOn (select : LineLevel) : Hp where
  trans := if select = .released then .idle else .held
  bits := []
  cutFault := false
  checkFault := false
  lengthFault := false
  unknownFault := false
  mask := ⟨false, false, false⟩
  softResetDue := false
  select := select
  resetLine := .released

/-- The outputs at power-on: NOTE released (R182), FETCH inactive with MADDR and RAST 0 (R118; log entry 10), DCLK
stopped and DOUT 0 (R133), SDO not driven while SELECT is high, and with no bit shifted yet while it is low (R165, R167). -/
def Pins.powerOn (select : LineLevel) : Pins where
  note := false
  sdo := if select = .released then none else some []
  maddr := 0
  rast := 0
  fetch := false
  dout := 0
  dots := []
  lsync := false
  fsync := false

/-- The part right after power-on, with SELECT, GUARD, FALLBACK and RESET released (log entry 9) and no command
waiting. -/
def State.reset : State where
  rgt := Rgt.powerOn .released
  csu := Csu.powerOn
  se := Se.powerOn .released
  lc := ⟨[], 0⟩
  cou := ⟨none, 0⟩
  pu := Pu.powerOn
  hp := Hp.powerOn .released
  pins := Pins.powerOn .released
  panel := ⟨[], []⟩
  freeReads := 0
  pending := []

/-! ### Updating one block -/

/-- The state with RGT replaced. -/
def State.setRgt (s : State) (x : Rgt) : State := { s with rgt := x }
/-- The state with CSU replaced. -/
def State.setCsu (s : State) (x : Csu) : State := { s with csu := x }
/-- The state with SE replaced. -/
def State.setSe (s : State) (x : Se) : State := { s with se := x }
/-- The state with LC replaced. -/
def State.setLc (s : State) (x : Lc) : State := { s with lc := x }
/-- The state with COU replaced. -/
def State.setCou (s : State) (x : Cou) : State := { s with cou := x }
/-- The state with PU replaced. -/
def State.setPu (s : State) (x : Pu) : State := { s with pu := x }
/-- The state with HP replaced. -/
def State.setHp (s : State) (x : Hp) : State := { s with hp := x }
/-- The state with the pins replaced. -/
def State.setPins (s : State) (x : Pins) : State := { s with pins := x }
/-- The state with the column drivers replaced. -/
def State.setPanel (s : State) (x : Panel) : State := { s with panel := x }
/-- The state with the slots of the region table replaced. -/
def State.setSlots (s : State) (x : SlotTable) : State := s.setRgt { s.rgt with slots := x }
/-- The state with the count of free values taken from Config replaced. -/
def State.setFree (s : State) (n : Nat) : State := { s with freeReads := n }
/-- The state with the queue of waiting commands replaced. -/
def State.setPending (s : State) (q : List Instr) : State := { s with pending := q }

end Sys2Proof.Machine
end

