-- ==== Sys2Proof/Machine/Ops.lean ====
section
/-! DEFINITION. The named operations over the state: handles and slots (chapter 1), the stacking order (chapter 2),
reservations (chapter 3), the guard (chapter 4), the timing set's displayed area (chapter 5), the effective stacking
order (chapter 2), and the bits and the CRC-8 of the host port (chapter 10). -/

namespace Sys2Proof.Machine
open Sys2Proof

/-! ### Handles and slots -/

/-- The byte value of a handle: "the generation times 32 plus the slot number" (R4). -/
def Handle.toByte (h : Handle) : Byte := BitVec.ofNat 8 (h.gen.toNat * 32 + h.slot.val)

/-- The handle a byte names: the generation in bits 7 to 5 and the slot in bits 4 to 0 (R184). Every byte value is a
well-formed handle (R4). -/
def Handle.ofByte (b : Byte) : Handle :=
  ⟨⟨b.toNat % 32, Nat.mod_lt _ (by decide)⟩, BitVec.ofNat 3 (b.toNat / 32)⟩

/-- The slot of a table with a number. -/
def slotAt (t : SlotTable) (i : Fin 32) : Slot := t[i]

/-- The table with one slot replaced. -/
def putSlot (t : SlotTable) (i : Fin 32) (x : Slot) : SlotTable := t.set i x

/-- The table whose slots are a function of their numbers. -/
def tabulate (f : Fin 32 → Slot) : SlotTable := ⟨(List.ofFn f).toArray, by simp⟩

/-- A slot returned to FREE: its generation advanced by one, from 7 to 0, and its record cleared (R2). -/
def Slot.freed (x : Slot) : Slot := Slot.cleared (x.gen + 1)

/-- The handle of the present occupant of a slot. -/
def handleOf (t : SlotTable) (i : Fin 32) : Handle := ⟨i, (slotAt t i).gen⟩

/-- R5: a handle is current when its slot is RESERVED or LIVE and the slot's generation is the handle's. -/
def isCurrent (t : SlotTable) (h : Handle) : Bool :=
  (slotAt t h.slot).gen == h.gen && (slotAt t h.slot).state != .free

/-- The handle names a LIVE region. -/
def isLive (t : SlotTable) (h : Handle) : Bool :=
  (slotAt t h.slot).gen == h.gen && (slotAt t h.slot).state == .live

/-- The lowest-numbered FREE slot (R3). -/
def lowestFree (t : SlotTable) : Option (Fin 32) :=
  (List.finRange 32).find? fun i => (slotAt t i).state == .free

/-- A cleared touch part (R15). -/
def TouchPart.cleared : TouchPart := ⟨.idle, ⟨0, 0⟩, ⟨0, 0⟩, 0, ⟨false, false, false, false⟩⟩

/-- The touch part a region is given when it comes into a touch mode: a cleared one in ACCEPT, none otherwise (R15). -/
def newTouch (m : TouchMode) : Option TouchPart :=
  if m = .accept then some TouchPart.cleared else none

/-- The touch part holds at least one news flag (R151). -/
def News.any (n : News) : Bool := n.press || n.release || n.releaseAway || n.cancel

/-- The slot is in the news set (R151). -/
def Slot.hasNews (x : Slot) : Bool :=
  match x.touch with
  | some p => p.news.any
  | none => false

/-- The news set (R151): the slots whose touch part holds at least one news flag, in increasing order. -/
def newsSlots (t : SlotTable) : List (Fin 32) := (List.finRange 32).filter fun i => (slotAt t i).hasNews

/-- The table with the touch part of one slot changed, if it has one. -/
def mapTouch (t : SlotTable) (i : Fin 32) (f : TouchPart → TouchPart) : SlotTable :=
  putSlot t i { slotAt t i with touch := (slotAt t i).touch.map f }

/-! ### Rectangles -/

/-- The rectangle contains the point: left ≤ x ≤ left + width − 1 and top ≤ y ≤ top + height − 1 (R10, R101). -/
def Rect.contains (r : Rect) (x y : Nat) : Bool :=
  decide (r.left ≤ x) && decide (x < r.left + r.width) && decide (r.top ≤ y) && decide (y < r.top + r.height)

/-- The rectangle lies inside an area of so many columns and lines (R17, R83). -/
def Rect.inside (r : Rect) (columns lines : Nat) : Bool :=
  decide (r.left + r.width ≤ columns) && decide (r.top + r.height ≤ lines)

/-! ### The stacking order -/

/-- The class of the region a handle names. -/
def classOf (t : SlotTable) (h : Handle) : RegionClass := (slotAt t h.slot).record.cls

/-- The telltale count of a stacking order: how many of its handles name TELLTALE regions (R28). -/
def telltaleCount (t : SlotTable) (stack : List Handle) : Nat :=
  stack.countP fun h => classOf t h == .telltale

/-- A list with a handle inserted at a position. -/
def insertAt (l : List Handle) (n : Nat) (h : Handle) : List Handle := l.take n ++ h :: l.drop n

/-- The front position of the band of a class (R28): 0 for the telltale band, the telltale count for the ordinary. -/
def bandFront (t : SlotTable) (stack : List Handle) : RegionClass → Nat
  | .telltale => 0
  | .ordinary => telltaleCount t stack

/-- The position behind the last handle of the band of a class (R31, BACK). -/
def bandBack (t : SlotTable) (stack : List Handle) : RegionClass → Nat
  | .telltale => telltaleCount t stack
  | .ordinary => stack.length

/-- Placement of a CREATE (R30): at the front of the band of the class. -/
def placeNew (t : SlotTable) (stack : List Handle) (cls : RegionClass) (h : Handle) : List Handle :=
  insertAt stack (bandFront t stack cls) h

/-- The place of a target beside a ref that stands nowhere in the list (log entry 4): a free place within the target's band, so that
the bands stay as R28 says every RESTACK leaves them. It is one place for one target, ref and position, as R189 asks of a RESTACK
sent twice. -/
def unplacedPlace (free : Nat) (t : SlotTable) (rest : List Handle) (target ref : Handle) (above : Bool) : Nat :=
  let front := bandFront t rest (classOf t target)
  let back := bandBack t rest (classOf t target)
  front + Config.unplacedRef free target.toByte ref.toByte above % (back - front + 1)

/-- RESTACK (R31): the target is removed, and inserted again at the place the position names on the list without it. -/
def restackList (free : Nat) (t : SlotTable) (stack : List Handle) (target : Handle) (p : Position) : List Handle :=
  let rest := stack.erase target
  match p with
  | .front => insertAt rest (bandFront t rest (classOf t target)) target
  | .back => insertAt rest (bandBack t rest (classOf t target)) target
  | .above ref =>
    if ref ∈ rest then insertAt rest (rest.idxOf ref) target
    else insertAt rest (unplacedPlace free t rest target ref true) target
  | .below ref =>
    if ref ∈ rest then insertAt rest (rest.idxOf ref + 1) target
    else insertAt rest (unplacedPlace free t rest target ref false) target

/-- A RESTACK whose ref stands nowhere in the list without the target, so that its place is a free value. -/
def takesFreePlace (stack : List Handle) (target : Handle) : Position → Bool
  | .front => false
  | .back => false
  | .above ref => !(stack.erase target).contains ref
  | .below ref => !(stack.erase target).contains ref

/-! ### Reservations -/

/-- The record is a CREATE whose reserved slot has this number. -/
def Change.createsSlot (c : Change) (i : Fin 32) : Bool :=
  match c.op with
  | .create _ => c.target.slot == i
  | _ => false

/-- The table with every reservation of a staging list released (R49): each slot reserved by a CREATE record of the
list goes from RESERVED to FREE, its generation advanced and its record cleared. -/
def releaseReservations (t : SlotTable) (changes : List Change) : SlotTable :=
  tabulate fun i =>
    if (slotAt t i).state = .reserved ∧ changes.any (·.createsSlot i) then (slotAt t i).freed else slotAt t i

/-! ### Guard, displayed area, effective stacking order -/

/-- R71: the guard is in force when the guard-enable setting is on and the recorded level of GUARD is asserted. -/
def Rgt.guardInForce (r : Rgt) : Bool := r.guardEnable && r.guardLine == .asserted

/-- The displayed area as columns and lines (R81); none while the timing set is unset. -/
def Se.area (e : Se) : Option (Nat × Nat) :=
  if e.timingValid then some (e.timing.displayedColumns, e.timing.displayedLines) else none

/-- An entry of the effective stacking order: a region or the fallback region (R36). -/
inductive Entry where
  | region (h : Handle)
  | fallback
deriving DecidableEq, Repr

/-- The visible field of the region a handle names. -/
def isVisible (t : SlotTable) (h : Handle) : Bool := (slotAt t h.slot).record.look.visible

/-- The effective stacking order (R35, R36): the visible regions in their stacking order; while fallback is effective,
the visible TELLTALE regions followed by the fallback region. -/
def effectiveOrder (s : State) : List Entry :=
  let shown := s.rgt.stack.filter (isVisible s.rgt.slots)
  if s.se.fallbackEffective then
    (shown.filter fun h => classOf s.rgt.slots h == .telltale).map Entry.region ++ [Entry.fallback]
  else
    shown.map Entry.region

/-- The rectangle of an entry; the fallback region's is the whole displayed area (R157). -/
def Entry.rect (s : State) : Entry → Rect
  | .region h => (slotAt s.rgt.slots h.slot).record.rect
  | .fallback => ⟨0, 0, s.se.timing.displayedColumns, s.se.timing.displayedLines⟩

/-- The entry's rectangle contains the point (R101, R141). -/
def Entry.contains (s : State) (x y : Nat) (e : Entry) : Bool := (e.rect s).contains x y

/-- The touch mode of an entry; the fallback region's is BLOCK (R157). -/
def Entry.touchMode (s : State) : Entry → TouchMode
  | .region h => (slotAt s.rgt.slots h.slot).record.touchMode
  | .fallback => .block

/-! ### CRC-8 -/

/-- The byte that sampled bits make, the first of them the most significant (R165). -/
def readByte (bits : List Bool) : Byte := bits.foldl (fun b bit => b.shiftConcat bit) 0

/-- The bits of a byte in the order in which they cross the host port, most significant first (R165). -/
def byteBits (b : Byte) : List Bool := [7, 6, 5, 4, 3, 2, 1, 0].map fun i => b.getLsbD i

/-- One message bit into the CRC-8 register (R168): shifted left by one, and 0x07 added modulo 2 when the bit shifted
out of the top differs from the message bit. -/
def crcBit (reg : Byte) (bit : Bool) : Byte :=
  if reg.getLsbD 7 != bit then (reg <<< 1) ^^^ 0x07 else reg <<< 1

/-- One byte into the CRC-8 register, most significant bit first (R168). -/
def crcByte (reg b : Byte) : Byte :=
  [7, 6, 5, 4, 3, 2, 1, 0].foldl (fun r i => crcBit r (b.getLsbD i)) reg

/-- The CRC-8 of a message; the register starts at 0 (R168). -/
def crc8 (bytes : List Byte) : Byte := bytes.foldl crcByte 0

end Sys2Proof.Machine
end

