-- ==== Sys2Proof/Machine/Flags.lean ====
section
/-! DEFINITION. The fault flags and the NOTE line (sections 10.6 and 10.8), and how a command ends: every next state
has NOTE judged afresh. -/

namespace Sys2Proof.Machine
open Sys2Proof

/-- The framing faults of a request (R169), besides the cut. -/
inductive FramingError where
  | check
  | unknown
  | length
deriving DecidableEq, Repr

/-- The port fault flag of a framing fault set; a flag already set stays set (R176). -/
def Hp.setFault (p : Hp) : FramingError → Hp
  | .check => { p with checkFault := true }
  | .unknown => { p with unknownFault := true }
  | .length => { p with lengthFault := true }

/-- The four port fault flags cleared (R177, R182). -/
def Hp.clearFaults (p : Hp) : Hp :=
  { p with cutFault := false, checkFault := false, lengthFault := false, unknownFault := false }

/-- The two pointer fault flags cleared (R139). -/
def Pu.clearFaults (p : Pu) : Pu := { p with linkFault := false, rangeFault := false }

/-- Any of the six fault flags is set (R178). -/
def anyFault (s : State) : Bool :=
  s.hp.cutFault || s.hp.checkFault || s.hp.lengthFault || s.hp.unknownFault || s.pu.linkFault || s.pu.rangeFault

/-- The level NOTE has (R178): asserted while at least one of the causes NEWS, OUTCOME and FAULT holds with its enable
on in the notification mask. -/
def noteLevel (s : State) : Bool :=
  (s.hp.mask.news && !(newsSlots s.rgt.slots).isEmpty) || (s.hp.mask.outcome && s.csu.unread)
    || (s.hp.mask.fault && anyFault s)

/-- NOTE judged from the mask and the causes as they stand (R178). -/
def State.judgeNote (s : State) : State := s.setPins { s.pins with note := noteLevel s }

/-- A command that ends in a next state: NOTE follows the causes as a level (R178). -/
def done (s : State) : Host.Outcome State Fault Refusal := .next s.judgeNote

end Sys2Proof.Machine
end

