-- ==== Sys2Proof/Machine/Operands.lean ====
section
/-! DEFINITION. The operand forms: the request kinds with their codes and lengths (R185), the fields of every request's
parameter bytes read with the staging checks on a payload (R18, R32, R184, R186), and the bytes of every reply (R175,
R185, R187). -/

namespace Sys2Proof.Machine
open Sys2Proof

/-! ### Requests and replies (R185) -/

/-- The requests of the catalogue (R170, R185). -/
inductive RequestKind where
  | create | amend | retire | restack | lock
  | publish | withdraw | discard | readOutcome
  | readRegion | readStack
  | guardOn | guardOff
  | setTiming | readTiming | startScan | stopScan
  | pointerSettings | readTouch | probe
  | readStatus | setNoteMask | softReset
deriving DecidableEq, Repr

/-- The kind code of a request (R185). -/
def RequestKind.code : RequestKind → Byte
  | .create => 0x11 | .amend => 0x12 | .retire => 0x13 | .restack => 0x14 | .lock => 0x15
  | .publish => 0x21 | .withdraw => 0x22 | .discard => 0x23 | .readOutcome => 0x24
  | .readRegion => 0x31 | .readStack => 0x32
  | .guardOn => 0x41 | .guardOff => 0x42
  | .setTiming => 0x51 | .readTiming => 0x52 | .startScan => 0x53 | .stopScan => 0x54
  | .pointerSettings => 0x61 | .readTouch => 0x62 | .probe => 0x63
  | .readStatus => 0x71 | .setNoteMask => 0x72 | .softReset => 0x73

/-- The parameter length a request requires (R185). -/
def RequestKind.paramLength : RequestKind → Nat
  | .create => 20 | .amend => 10 | .retire => 1 | .restack => 3 | .lock => 1
  | .publish => 0 | .withdraw => 0 | .discard => 0 | .readOutcome => 0
  | .readRegion => 1 | .readStack => 0
  | .guardOn => 0 | .guardOff => 0
  | .setTiming => 12 | .readTiming => 0 | .startScan => 0 | .stopScan => 0
  | .pointerSettings => 2 | .readTouch => 1 | .probe => 3
  | .readStatus => 0 | .setNoteMask => 3 | .softReset => 0

/-- The requests, in the order of R185's table. -/
def RequestKind.all : List RequestKind :=
  [.create, .amend, .retire, .restack, .lock, .publish, .withdraw, .discard, .readOutcome, .readRegion, .readStack,
    .guardOn, .guardOff, .setTiming, .readTiming, .startScan, .stopScan, .pointerSettings, .readTouch, .probe,
    .readStatus, .setNoteMask, .softReset]

/-- The request a kind byte is the code of, if any (R169 check 2, R185). -/
def RequestKind.ofCode (b : Byte) : Option RequestKind := RequestKind.all.find? fun k => k.code == b

/-- The reply codes (R175). -/
inductive ReplyCode where
  | done | busy | full | noSlot | stale | range | locked | guarded | state | tooLate | check | length | unknown
deriving DecidableEq, Repr

/-- The value of a reply code (R185). -/
def ReplyCode.toByte : ReplyCode → Byte
  | .done => 0x40 | .busy => 0x41 | .full => 0x42 | .noSlot => 0x43 | .stale => 0x44 | .range => 0x45 | .locked => 0x46
  | .guarded => 0x47 | .state => 0x48 | .tooLate => 0x49 | .check => 0x4A | .length => 0x4B | .unknown => 0x4C

/-- The bytes of a reply: code, length, the reply bytes, and the CRC-8 of them all (R166, R168). -/
def encodeReply (code : ReplyCode) (bytes : List Byte) : List Byte :=
  let body := code.toByte :: BitVec.ofNat 8 bytes.length :: bytes
  body ++ [crc8 body]

/-! ### Fields of bytes (R184) -/

/-- A parameter byte by its position; HP has checked the length before any field is read (R169). -/
def byteAt (bytes : List Byte) (i : Nat) : Byte := bytes.getD i 0

/-- A one-byte number field. -/
def num1 (bytes : List Byte) (i : Nat) : Nat := (byteAt bytes i).toNat

/-- A two-byte number field, most significant byte first. -/
def num2 (bytes : List Byte) (i : Nat) : Nat := num1 bytes i * 256 + num1 bytes (i + 1)

/-- A three-byte frame-memory address, most significant byte first. -/
def addr3 (bytes : List Byte) (i : Nat) : Addr :=
  BitVec.ofNat 24 (num1 bytes i * 65536 + num1 bytes (i + 1) * 256 + num1 bytes (i + 2))

/-- The bytes of a one-byte number field. -/
def put1 (n : Nat) : List Byte := [BitVec.ofNat 8 n]

/-- The bytes of a two-byte number field, most significant byte first. -/
def put2 (n : Nat) : List Byte := [BitVec.ofNat 8 (n / 256), BitVec.ofNat 8 n]

/-- The bytes of an address field, most significant byte first. -/
def putAddr (a : Addr) : List Byte :=
  [BitVec.ofNat 8 (a.toNat / 65536), BitVec.ofNat 8 (a.toNat / 256), BitVec.ofNat 8 a.toNat]

/-- A byte with the bits of a list, bit 7 first. -/
def ofBits (bits : List Bool) : Byte := bits.foldl (fun r b => (r <<< 1) ||| (if b then 1 else 0)) 0

/-- A yes/no code field: 0x00 no (off), 0x01 yes (on), any other value no name (R185). -/
def flag1 (b : Byte) : Option Bool := if b = 0 then some false else if b = 1 then some true else none

/-! ### Characters on PRX (R188) -/

/-- A character received on PRX (R188): eight data bits, the marker, and whether its stop bit was found high. -/
structure PrxChar where
  data : Byte
  marker : Bool
  stop : Bool
deriving DecidableEq, Repr

/-- The character that the levels on PRX spell (R188), the first level in bit 0: the start bit at low level, the data bits with the
least significant first, the marker bit, the stop bit. None while the line stays high where a start bit would stand: no character
begins. -/
def readCharacter (line : PrxBits) : Option PrxChar :=
  if line.getLsbD 0 then none
  else some ⟨line.extractLsb' 1 8, line.getLsbD 9, line.getLsbD 10⟩

/-- The levels on PRX of a character (R188). -/
def PrxChar.bits (ch : PrxChar) : PrxBits :=
  BitVec.ofBool ch.stop ++ BitVec.ofBool ch.marker ++ ch.data ++ BitVec.ofBool false

/-! ### Descriptor fields (R186), each with its check of R18 -/

/-- Bits 1 to 0 of a mode byte: 00 NONE, 01 ACCEPT, 10 BLOCK; 11 is no name (R186). -/
def readTouchMode (mode : Byte) : Option TouchMode :=
  match mode.getLsbD 1, mode.getLsbD 0 with
  | false, false => some .none
  | false, true => some .accept
  | true, false => some .block
  | true, true => none

/-- Bits 5, 4 and 3 of a mode byte (R186). -/
def readLook (mode : Byte) : Look := ⟨mode.getLsbD 5, mode.getLsbD 4, mode.getLsbD 3⟩

/-- Bit 7 of a mode byte (R186). -/
def readClass (mode : Byte) : RegionClass := if mode.getLsbD 7 then .telltale else .ordinary

/-- Bit 6 of a mode byte (R186). -/
def readKind (mode : Byte) : ContentKind := if mode.getLsbD 6 then .bitmap else .text

/-- A rectangle whose fields lie in their ranges and which fits the largest panel (R6, R10, R18). -/
def readRect (left top width height : Nat) : Option Rect :=
  if left ≤ 199 ∧ top ≤ 799 ∧ 1 ≤ width ∧ width ≤ 200 ∧ 1 ≤ height ∧ height ≤ 800
      ∧ left + width ≤ 200 ∧ top + height ≤ 800 then
    some ⟨left, top, width, height⟩
  else none

/-- Source fields in their ranges (R6, R18). For BITMAP the cell height and scroll offset are not read: 1 and 0 are
stored (R12). -/
def readSource (kind : ContentKind) (base : Addr) (stride cellHeight scroll : Nat) : Option Source :=
  if 1 ≤ stride ∧ stride ≤ 4095 then
    match kind with
    | .bitmap => some ⟨.bitmap, base, stride, 1, 0⟩
    | .text =>
      if 1 ≤ cellHeight ∧ cellHeight ≤ 32 ∧ scroll < cellHeight then some ⟨.text, base, stride, cellHeight, scroll⟩
      else none
  else none

/-- Bits 1 to 0 of a cursor byte: 00 STEADY, 01 SLOW, 10 FAST; 11 is no name (R186). -/
def readBlinkMode (b : Byte) : Option BlinkMode :=
  match b.getLsbD 1, b.getLsbD 0 with
  | false, false => some .steady
  | false, true => some .slow
  | true, false => some .fast
  | true, true => none

/-- A cursor part (R14, R18): absent when bit 7 of the cursor byte is 0, and then nothing more is read (R186). The
outer option is none where R14 refuses the payload. -/
def readCursor (cursorByte : Byte) (address : Addr) (first last : Nat) : Option (Option CursorPart) :=
  if cursorByte.getLsbD 7 then
    match readBlinkMode cursorByte with
    | none => none
    | some mode => if first ≤ last ∧ last ≤ 31 then some (some ⟨address, first, last, mode⟩) else none
  else some none

/-- The record of a CREATE descriptor (R3, R186), or none where R18 refuses it with RANGE. -/
def readDescriptor (p : List Byte) : Option RegionRecord :=
  let mode := byteAt p 0
  match readRect (num1 p 1) (num2 p 2) (num1 p 4) (num2 p 5),
      readSource (readKind mode) (addr3 p 7) (num2 p 10) (num1 p 12) (num1 p 13),
      readCursor (byteAt p 14) (addr3 p 15) (num1 p 18) (num1 p 19), readTouchMode mode with
  | some rect, some source, some cursor, some touch =>
    if rect.width ≤ source.stride ∧ (source.kind = .bitmap → cursor = none) then
      some ⟨readClass mode, false, rect, source, readLook mode, cursor, touch⟩
    else none
  | _, _, _, _ => none

/-- The group code of an AMEND and the values of its area, which begins at byte 2 (R186), or none where R18 refuses
them with RANGE. -/
def readGroup (p : List Byte) : Option Group :=
  match (byteAt p 1).toNat with
  | 1 => (readRect (num1 p 2) (num2 p 3) (num1 p 5) (num2 p 6)).map Group.geometry
  | 2 => (readSource (readKind (byteAt p 2)) (addr3 p 3) (num2 p 6) (num1 p 8) (num1 p 9)).map Group.source
  | 3 => if num1 p 5 ≤ 31 then some (.scroll (addr3 p 2) (num1 p 5)) else none
  | 4 => some (.look (readLook (byteAt p 2)))
  | 5 => (readCursor (byteAt p 2) (addr3 p 3) (num1 p 6) (num1 p 7)).map Group.cursor
  | 6 => (readTouchMode (byteAt p 2)).map Group.touch
  | _ => none

/-- The position of a RESTACK (R185): the ref byte is read for ABOVE and BELOW only, and a ref equal to the target is
then refused with RANGE, as is a position that is not one of the four (R32). -/
def readPosition (p : List Byte) : Option Position :=
  let target := Handle.ofByte (byteAt p 0)
  let ref := Handle.ofByte (byteAt p 2)
  match (byteAt p 1).toNat with
  | 1 => some .front
  | 2 => some .back
  | 3 => if ref = target then none else some (.above ref)
  | 4 => if ref = target then none else some (.below ref)
  | _ => none

/-- The handle a one-handle request carries in byte 0 (R185). -/
def readHandle (p : List Byte) : Handle := Handle.ofByte (byteAt p 0)

/-- The seven fields of a SET TIMING (R185), not yet checked. -/
def readTimingFields (p : List Byte) : Timing where
  cellWidth := num1 p 0
  totalColumns := num1 p 1
  displayedColumns := num1 p 2
  totalLines := num2 p 3
  displayedLines := num2 p 5
  fallbackBase := addr3 p 7
  fallbackStride := num2 p 10

/-- The fields of a POINTER SETTINGS (R138, R185): enable and contact timeout, or none where it is refused with
RANGE. -/
def readPointerSettings (p : List Byte) : Option (Bool × Nat) :=
  match flag1 (byteAt p 0) with
  | some e => if 1 ≤ num1 p 1 ∧ num1 p 1 ≤ 15 then some (e, num1 p 1) else none
  | none => none

/-- The three enables of a SET NOTE MASK (R179, R185), or none where it is refused with RANGE. -/
def readNoteMask (p : List Byte) : Option NoteMask :=
  match flag1 (byteAt p 0), flag1 (byteAt p 1), flag1 (byteAt p 2) with
  | some n, some o, some f => some ⟨n, o, f⟩
  | _, _, _ => none

/-- The point of a PROBE (R185). -/
def readPoint (p : List Byte) : Point := ⟨num1 p 0, num2 p 1⟩

/-! ### Reply bytes (R187) -/

/-- The mode bits of a touch mode (R186). -/
def touchModeBits : TouchMode → List Bool
  | .none => [false, false]
  | .accept => [false, true]
  | .block => [true, false]

/-- The mode byte of a record (R186). -/
def modeByte (r : RegionRecord) : Byte :=
  ofBits ([r.cls == .telltale, r.source.kind == .bitmap, r.look.visible, r.look.reverse, r.look.blinkEnable, false]
    ++ touchModeBits r.touchMode)

/-- The blink mode bits of a cursor byte (R186). -/
def blinkModeBits : BlinkMode → List Bool
  | .steady => [false, false]
  | .slow => [false, true]
  | .fast => [true, false]

/-- Bytes 14 to 19 of a descriptor; all 0 when the cursor part is absent (R187). -/
def cursorBytes : Option CursorPart → List Byte
  | none => [0, 0, 0, 0, 0, 0]
  | some c =>
    ofBits ([true, false, false, false, false, false] ++ blinkModeBits c.mode)
      :: putAddr c.address ++ put1 c.firstRaster ++ put1 c.lastRaster

/-- The 20 bytes of a region descriptor (R186). -/
def descriptorBytes (r : RegionRecord) : List Byte :=
  modeByte r :: put1 r.rect.left ++ put2 r.rect.top ++ put1 r.rect.width ++ put2 r.rect.height
    ++ putAddr r.source.base ++ put2 r.source.stride ++ put1 r.source.cellHeight ++ put1 r.source.scroll
    ++ cursorBytes r.cursor

/-- The code of a slot state in a READ REGION reply (R187); a FREE slot is never reported (section 1.7). -/
def slotStateByte : SlotState → Byte
  | .free => 0
  | .reserved => 1
  | .live => 2

/-- The 24 bytes of a READ REGION reply (R187): position present for a LIVE slot, and 0xFF for a RESERVED one. -/
def regionBytes (h : Handle) (x : Slot) (position : Nat) : List Byte :=
  h.toByte :: slotStateByte x.state :: descriptorBytes x.record
    ++ [ofBits [x.record.locked, x.touch.isSome, x.state == .live, false, false, false, false, false],
      if x.state = .live then BitVec.ofNat 8 position else 0xFF]

/-- The 2 + L bytes of a READ STACK reply (R187). -/
def stackBytes (t : SlotTable) (stack : List Handle) : List Byte :=
  BitVec.ofNat 8 stack.length :: BitVec.ofNat 8 (telltaleCount t stack) :: stack.map Handle.toByte

/-- The value of a failure code (R187). -/
def FailCode.toByte : FailCode → Byte
  | .stale => 0x44
  | .range => 0x45
  | .locked => 0x46
  | .guarded => 0x47
  | .band => 0x50

/-- Bytes 1 to 4 of a READ OUTCOME reply (R187) from the result and the count. -/
def resultBytes (count : Nat) : SetResult → List Byte
  | .none => [0, BitVec.ofNat 8 count, 0xFF, 0]
  | .applied => [1, BitVec.ofNat 8 count, 0xFF, 0]
  | .rejected i c => [2, BitVec.ofNat 8 count, BitVec.ofNat 8 i, c.toByte]
  | .withdrawn => [3, BitVec.ofNat 8 count, 0xFF, 0]
  | .discarded => [4, BitVec.ofNat 8 count, 0xFF, 0]

/-- The 5 bytes of a READ OUTCOME reply (R187). -/
def outcomeBytes (o : OutcomeRecord) : List Byte := o.seq :: resultBytes o.count o.result

/-- The 13 bytes of a READ TIMING reply (R187). -/
def timingBytes (valid : Bool) (t : Timing) : List Byte :=
  ofBits [valid] :: put1 t.cellWidth ++ put1 t.totalColumns ++ put1 t.displayedColumns ++ put2 t.totalLines
    ++ put2 t.displayedLines ++ putAddr t.fallbackBase ++ put2 t.fallbackStride

/-- The code of a touch state (R187). -/
def touchStateByte : TouchState → Byte
  | .idle => 0
  | .pressed => 1
  | .pressedAway => 2

/-- The bytes of a point in a reply: x, then y. -/
def pointBytes (p : Point) : List Byte := put1 p.x ++ put2 p.y

/-- The 10 bytes of a READ TOUCH reply (R187). -/
def touchBytes (h : Handle) (p : TouchPart) : List Byte :=
  h.toByte :: touchStateByte p.state :: pointBytes p.press ++ pointBytes p.last
    ++ [BitVec.ofNat 8 p.activations,
      ofBits [false, false, false, false, p.news.press, p.news.release, p.news.releaseAway, p.news.cancel]]

/-- The result of a hit test (R141, R153). -/
inductive Hit where
  | none
  | hit (h : Handle)
  | blocked
deriving DecidableEq, Repr

/-- Bytes 0 and 1 of a PROBE reply (R187). -/
def hitBytes : Hit → List Byte
  | .none => [0, 0]
  | .hit h => [1, h.toByte]
  | .blocked => [2, 0]

/-- The two bytes of an entry in a PROBE reply (R187). -/
def entryBytes (s : State) (e : Entry) : List Byte :=
  match e with
  | .region h => [ofBits (touchModeBits (e.touchMode s)), h.toByte]
  | .fallback => [ofBits (true :: false :: false :: false :: false :: false :: touchModeBits (e.touchMode s)), 0]

/-- The 3 + 2E bytes of a PROBE reply (R187). -/
def probeBytes (s : State) (hit : Hit) (entries : List Entry) : List Byte :=
  hitBytes hit ++ put1 entries.length ++ entries.flatMap (entryBytes s)

/-- The code of a scan state (R187). -/
def scanByte : ScanState → Byte
  | .stopped => 0
  | .running => 1
  | .stopping => 2

/-- Bytes 5 and 6 of a READ STATUS reply: contact state and captured handle (R187). -/
def contactBytes : Contact → List Byte
  | .up => [0, 0]
  | .captured h => [1, h.toByte]
  | .unclaimed => [2, 0]

/-- The code of the last cancel cause (R187). -/
def causeByte : Option CancelCause → Byte
  | none => 0
  | some .retired => 1
  | some .hidden => 2
  | some .touchOff => 3
  | some .fallback => 4
  | some .timeout => 5
  | some .disabled => 6
  | some .reset => 7

/-- Eight entries of the news set, the slot with the highest number in bit 7 (R187). -/
def newsByte (t : SlotTable) (slots : List (Fin 32)) : Byte := ofBits (slots.map fun i => (slotAt t i).hasNews)

/-- Bytes 9 to 12 of a READ STATUS reply: the news set, slot 31 in byte 9 bit 7 down to slot 0 in byte 12 bit 0
(R187). -/
def newsBytes (t : SlotTable) : List Byte :=
  [newsByte t [31, 30, 29, 28, 27, 26, 25, 24], newsByte t [23, 22, 21, 20, 19, 18, 17, 16],
    newsByte t [15, 14, 13, 12, 11, 10, 9, 8], newsByte t [7, 6, 5, 4, 3, 2, 1, 0]]

/-- The 13 bytes of a READ STATUS reply (R177, R187). -/
def statusBytes (s : State) : List Byte :=
  [scanByte s.se.scan,
    ofBits [s.se.timingValid, s.csu.setState == .pending, s.csu.unread, s.rgt.guardLine == .asserted,
      s.rgt.guardEnable, s.rgt.guardInForce, s.se.fallbackLine == .asserted, s.se.fallbackEffective],
    BitVec.ofNat 8 s.se.frame.toNat, BitVec.ofNat 8 s.csu.changes.length, s.csu.seq]
    ++ contactBytes s.pu.contact
    ++ [causeByte s.pu.lastCause,
      ofBits [false, false, s.pu.linkFault, s.pu.rangeFault, s.hp.cutFault, s.hp.checkFault, s.hp.lengthFault,
        s.hp.unknownFault]]
    ++ newsBytes s.rgt.slots

end Sys2Proof.Machine
end

