-- ==== Sys2Proof/Machine/Capture.lean ====
section
/-! DEFINITION. The shared operations of the Pointer Unit: the hit test (R141), the cancellation of a capture (R149), the
commit notice (R150) and the tick of a frame start (R146, R148). -/

namespace Sys2Proof.Machine
open Sys2Proof

/-- The walk of the hit test (R141) over entries of the effective stacking order, front first. -/
def hitWalk (s : State) (p : Point) : List Entry → Hit
  | [] => .none
  | e :: rest =>
    if e.contains s p.x p.y then
      match e.touchMode s, e with
      | .accept, .region h => .hit h
      | .none, _ => hitWalk s p rest
      | _, _ => .blocked
    else hitWalk s p rest

/-- The hit test at a point (R141), from the applied table and the fallback-effective flag as they stand (R37). -/
def hitTest (s : State) (p : Point) : Hit := hitWalk s p (effectiveOrder s)

/-- The touch part of the captured region at a cancellation (R149): IDLE, with CANCEL news where the cause gives it. -/
def TouchPart.cancelled (news : Bool) (p : TouchPart) : TouchPart :=
  { p with state := .idle, news := { p.news with cancel := p.news.cancel || news } }

/-- R149: whether a cause leaves CANCEL news in the region, if it still has a touch part. -/
def CancelCause.leavesNews : CancelCause → Bool
  | .retired => false
  | .reset => false
  | .hidden => true
  | .touchOff => true
  | .fallback => true
  | .timeout => true
  | .disabled => true

/-- R149: the contact after a cancellation. -/
def CancelCause.contactAfter : CancelCause → Contact
  | .retired => .unclaimed
  | .hidden => .unclaimed
  | .touchOff => .unclaimed
  | .fallback => .unclaimed
  | .timeout => .up
  | .disabled => .up
  | .reset => .up

/-- A cancellation (R149): if a region is captured, the capture record is cleared, its touch state becomes IDLE, CANCEL
news is set where the cause gives it, and the cause is recorded. With no capture it does not occur. -/
def cancelCapture (cause : CancelCause) (s : State) : State :=
  match s.pu.contact with
  | .captured h =>
    (s.setSlots (mapTouch s.rgt.slots h.slot (·.cancelled cause.leavesNews))).setPu
      { s.pu with contact := cause.contactAfter, lastCause := some cause }
  | _ => s

/-- What a commit notice says of a region that was LIVE before the commit (R22): the first cause that applies, from the
table after the commit and the slots whose touch part was dropped at any point during the set. -/
def noticeCause (after : SlotTable) (dropped : List (Fin 32)) (h : Handle) : Option CancelCause :=
  if !isCurrent after h then some .retired
  else if !isVisible after h then some .hidden
  else if dropped.contains h.slot then some .touchOff
  else none

/-- PU takes the commit notice (R150), after the committed table has brought the touch parts into line: a captured
region that the notice names is cancelled. -/
def takeNotice (dropped : List (Fin 32)) (s : State) : State :=
  match s.pu.contact with
  | .captured h =>
    match noticeCause s.rgt.slots dropped h with
    | some cause => cancelCapture cause s
    | none => s
  | _ => s

/-- The tick brings the silence count to the contact timeout (R146): a contact is down, and the advanced count is not
less than the timeout. -/
def tickTimesOut (p : Pu) : Bool := decide (p.contact ≠ .up) && decide (p.timeout ≤ p.silence + 1)

/-- The silence count's part of a tick (R146): while a contact is down the count advances; at the timeout the contact is
abandoned, a capture being cancelled with TIMEOUT, and the count returns to 0. -/
def tickSilence (s : State) : State :=
  if tickTimesOut s.pu then
    let s' := cancelCapture .timeout s
    s'.setPu { s'.pu with contact := .up, silence := 0 }
  else if s.pu.contact = .up then s
  else s.setPu { s.pu with silence := s.pu.silence + 1 }

/-- The fallback part of a tick (R148): while the fallback-effective flag is set, a captured ORDINARY region is cancelled
with FALLBACK. -/
def tickFallback (s : State) : State :=
  match s.pu.contact with
  | .captured h =>
    if s.se.fallbackEffective ∧ classOf s.rgt.slots h = .ordinary then cancelCapture .fallback s else s
  | _ => s

/-- PU takes a frame start as its tick: "the timeout is judged first" (R148), then the capture against fallback. -/
def takeTick (s : State) : State :=
  let s' := tickFallback (tickSilence s)
  s'.setSe { s'.se with tickOwed := false }

/-- PU at the RESET line or a soft reset (R155, R156): a capture is cancelled with RESET, every touch part is cleared, the
contact is UP, the silence count 0 and both fault flags clear. The settings and the receiver are kept. -/
def pointerReset (s : State) : State :=
  let s' := cancelCapture .reset s
  (s'.setSlots (tabulate fun i =>
      { slotAt s'.rgt.slots i with touch := (slotAt s'.rgt.slots i).touch.map fun _ => TouchPart.cleared })).setPu
    { s'.pu.clearFaults with contact := .up, silence := 0 }

end Sys2Proof.Machine
end

