-- ==== Sys2Proof/Machine/Apply.lean ====
section
/-! DEFINITION. The evaluation of a change set at an apply point (section 3.6): RGT's working copy, the checks of R56 and
R32, the effects of R19 to R21 and R30 to R33, the commit (R58) and the rejection (R59); and the emptying of a set that
is not committed (R49, R65). -/

namespace Sys2Proof.Machine
open Sys2Proof

/-- RGT's working copy (R55): the slots with their locked fields and touch parts, the stacking order, and the slots
whose touch part the set has dropped so far (R22). `free` is the model's counter of free values at the set's evaluation, and
`tookFree` says whether a RESTACK of the set has taken one (log entry 4). -/
structure Working where
  slots : SlotTable
  stack : List Handle
  dropped : List (Fin 32)
  free : Nat
  tookFree : Bool
deriving DecidableEq, Repr

/-- The record conditions of R17 in a displayed area; while there is none, the first condition fails. -/
def recordFits (area : Option (Nat × Nat)) (r : RegionRecord) : Bool :=
  (match area with
    | some (columns, lines) => r.rect.inside columns lines
    | none => false)
  && decide (r.rect.width ≤ r.source.stride)
  && (r.source.kind != .bitmap || r.cursor.isNone)
  && (r.source.kind != .text || decide (r.source.scroll < r.source.cellHeight))

/-- R17: the changes of these groups are judged by the record conditions; "LOOK, TOUCH … changes are not subject to these
conditions". -/
def Group.judged : Group → Bool
  | .geometry _ => true
  | .source _ => true
  | .scroll _ _ => true
  | .cursor _ => true
  | .look _ => false
  | .touch _ => false

/-- The record with one group replaced (R20); a SCROLL of a BITMAP record stores a scroll offset of 0 (R12). -/
def amendRecord (g : Group) (r : RegionRecord) : RegionRecord :=
  match g with
  | .geometry x => { r with rect := x }
  | .source x => { r with source := x }
  | .scroll base offset =>
    { r with source := { r.source with base := base, scroll := if r.source.kind = .bitmap then 0 else offset } }
  | .look x => { r with look := x }
  | .cursor c => { r with cursor := c }
  | .touch m => { r with touchMode := m }

/-- The slot after an applied AMEND: the record amended, and for TOUCH the touch part created or dropped when the mode
comes into or leaves ACCEPT, and kept when the mode stays (R15, R20). -/
def amendSlot (g : Group) (x : Slot) : Slot :=
  match g with
  | .touch m =>
    { x with record := amendRecord g x.record, touch := if m = x.record.touchMode then x.touch else newTouch m }
  | _ => { x with record := amendRecord g x.record }

/-- An applied AMEND drops the touch part of its slot (R20). -/
def amendDrops (g : Group) (x : Slot) : Bool :=
  match g with
  | .touch m => x.touch.isSome && m != x.record.touchMode
  | _ => false

/-- The checks that AMEND, RETIRE and RESTACK make of their target, in order (R56, R32): current, not locked, and not a
TELLTALE while the guard is in force (R72). -/
def targetFault (guard : Bool) (w : Working) (h : Handle) : Option FailCode :=
  if !isCurrent w.slots h then some .stale
  else if (slotAt w.slots h.slot).record.locked then some .locked
  else if guard && classOf w.slots h == .telltale then some .guarded
  else none

/-- The checks that a RESTACK makes of its ref (R32, checks 4 and 5). -/
def refFault (w : Working) (target : Handle) : Position → Option FailCode
  | .front => none
  | .back => none
  | .above ref => if !isCurrent w.slots ref then some .stale
    else if classOf w.slots ref ≠ classOf w.slots target then some .band else none
  | .below ref => if !isCurrent w.slots ref then some .stale
    else if classOf w.slots ref ≠ classOf w.slots target then some .band else none

/-- The first check a change fails against the working copy (R56), if any. -/
def changeFault (guard : Bool) (area : Option (Nat × Nat)) (w : Working) (c : Change) : Option FailCode :=
  match c.op with
  | .create d => if recordFits area d then none else some .range
  | .amend g =>
    (targetFault guard w c.target).or
      (if g.judged && !recordFits area (amendRecord g (slotAt w.slots c.target.slot).record) then some .range else none)
  | .retire => targetFault guard w c.target
  | .restack p => (targetFault guard w c.target).or (refFault w c.target p)
  | .lock => if isCurrent w.slots c.target then none else some .stale

/-- A change that has passed is carried out on the working copy (R57; R19 and R30, R20, R21 and R33, R31, R76). -/
def carryOut (w : Working) (c : Change) : Working :=
  let x := slotAt w.slots c.target.slot
  match c.op with
  | .create d =>
    { w with
      slots := putSlot w.slots c.target.slot
        { x with state := .live, record := { d with locked := false }, touch := newTouch d.touchMode }
      stack := placeNew w.slots w.stack d.cls c.target }
  | .amend g =>
    { w with
      slots := putSlot w.slots c.target.slot (amendSlot g x)
      dropped := if amendDrops g x then c.target.slot :: w.dropped else w.dropped }
  | .retire =>
    { w with
      slots := putSlot w.slots c.target.slot x.freed
      stack := w.stack.erase c.target
      dropped := if x.touch.isSome then c.target.slot :: w.dropped else w.dropped }
  | .restack p =>
    { w with
      stack := restackList w.free w.slots w.stack c.target p
      tookFree := w.tookFree || takesFreePlace w.stack c.target p }
  | .lock => { w with slots := putSlot w.slots c.target.slot { x with record := { x.record with locked := true } } }

/-- The outcome of an evaluation: the working copy that every change has passed on, or the failing index and code. -/
inductive Verdict where
  | passed (w : Working)
  | failed (index : Nat) (code : FailCode)
deriving DecidableEq, Repr

/-- The changes of a set taken one by one in index order, each judged and carried out on what the earlier ones have
left; evaluation stops at the first that fails (R55). -/
def evaluate (guard : Bool) (area : Option (Nat × Nat)) (w : Working) : List Change → Verdict
  | [] => .passed w
  | c :: rest =>
    match changeFault guard area w c with
    | some code => .failed c.index code
    | none => evaluate guard area (carryOut w c) rest

/-- The working copy at the start of an evaluation (R55). -/
def State.working (s : State) : Working := ⟨s.rgt.slots, s.rgt.stack, [], s.freeReads, false⟩

/-- CSU writes the outcome record with the set's sequence number and the count of its changes, sets outcome-unread,
empties the list and returns to OPEN (R58, R59, R60, R62). -/
def Csu.close (c : Csu) (r : SetResult) : Csu :=
  { c with changes := [], setState := .opened, outcome := ⟨c.seq, r, c.changes.length⟩, unread := true }

/-- A commit (R58): the working copy becomes the applied table and stacking order in one step, CSU records APPLIED, and
PU takes the commit notice within the same event (R150). -/
def commitSet (w : Working) (s : State) : State :=
  takeNotice w.dropped
    (((s.setRgt { s.rgt with slots := w.slots, stack := w.stack }).setCsu (s.csu.close .applied)).setFree
      (if w.tookFree then w.free + 1 else w.free))

/-- A set that ends without a commit (R49, R59, R60): its reservations are released and its outcome recorded. -/
def abandonSet (r : SetResult) (s : State) : State :=
  (s.setSlots (releaseReservations s.rgt.slots s.csu.changes)).setCsu (s.csu.close r)

/-- The set handed to RGT at an apply point (R55): the guard is judged once and the displayed area taken from the timing
set; the set is committed if every change passes, and rejected otherwise. -/
def applySet (s : State) : State :=
  match evaluate s.rgt.guardInForce s.se.area s.working s.csu.changes with
  | .passed w => commitSet w s
  | .failed i code => abandonSet (.rejected i code) s

/-- CSU takes a frame start or the stop point (R53): an apply point when a set is PENDING, and nothing otherwise. -/
def applyIfPending (s : State) : State := if s.csu.setState = .pending then applySet s else s

/-- CSU at the RESET line or a soft reset (R65, R66): the reservations are released, the list is emptied and the set is
OPEN; a pending set is recorded DISCARDED, and otherwise the outcome record and outcome-unread are left. -/
def changeSetReset (s : State) : State :=
  if s.csu.setState = .pending then abandonSet .discarded s
  else (s.setSlots (releaseReservations s.rgt.slots s.csu.changes)).setCsu { s.csu with changes := [] }

end Sys2Proof.Machine
end

