-- ==== Sys2Proof/Machine/Resets.lean ====
section
/-! DEFINITION. The resets: POWER_ON, RESET_ASSERT, RESET_RELEASE and SOFT_RESET_ACTION, and the rule that a soft reset
whose reply has ended acts before any other event (R180; log entry 8). -/

namespace Sys2Proof.Machine
open Sys2Proof

/-- SE at the RESET line or a soft reset (R96, R97, R98): STOPPED at once, the frame abandoned with no stop point, the
frame counter 0, the fallback-effective flag clear; the tick of a frame start not yet taken is not raised (R155). -/
def Se.halted (e : Se) : Se :=
  { e with scan := .stopped, frame := 0, fallbackEffective := false, place := .outside, stop := none, tickOwed := false }

/-- LC, COU and the panel pins at the RESET line or a soft reset (R93, R118, R133): the span list empty, no cell held, FETCH
inactive with MADDR and RAST carrying 0, DCLK stopped and DOUT 0, no LSYNC and no FSYNC. -/
def dropLine (s : State) : State :=
  ((s.setLc ⟨[], 0⟩).setCou ⟨none, 0⟩).setPins
    { s.pins with maddr := 0, rast := 0, fetch := false, dout := 0, dots := [], lsync := false, fsync := false }

/-- A SOFT RESET retires the region of a slot (R26): it is LIVE, not locked, and not a TELLTALE under guard in force. -/
def Slot.softRetired (guard : Bool) (x : Slot) : Bool :=
  x.state == .live && !x.record.locked && !(guard && x.record.cls == .telltale)

/-- RGT at a soft reset (R26, R39, R74): the guard is judged once, the regions it names go to FREE with their generation
advanced, and the survivors keep their order in the stacking order. -/
def regionSoftReset (s : State) : State :=
  let guard := s.rgt.guardInForce
  s.setRgt { s.rgt with
    slots := tabulate fun i =>
      if (slotAt s.rgt.slots i).softRetired guard then (slotAt s.rgt.slots i).freed else slotAt s.rgt.slots i
    stack := s.rgt.stack.filter fun h => !(slotAt s.rgt.slots h.slot).softRetired guard }

/-- The soft reset acts on every block as one event (R181). -/
def softResetEffect (s : State) : State :=
  let s1 := pointerReset (regionSoftReset (changeSetReset s))
  let s2 := dropLine (s1.setSe s1.se.halted)
  s2.setHp { s2.hp.clearFaults with softResetDue := false }

/-- The state in which an event is taken: a soft reset whose reply has ended has acted, since it acts "when the reply
ends" (R180) and no other event falls before it. -/
def State.settled (s : State) : State := if s.hp.softResetDue then softResetEffect s else s

/-- HP at the assertion of RESET (R182, R183): the transaction is ended into HELD, the bits of a byte in progress discarded with it
(log entry 18), the port fault flags are cleared; the soft reset of a SOFT RESET request whose reply is cut acts right after. -/
def Hp.resetAsserted (p : Hp) : Hp :=
  { p.clearFaults with
    trans := .held
    bits := []
    resetLine := .asserted
    softResetDue := match p.trans with
      | .replying _ _ soft => soft
      | _ => p.softResetDue }

/-- SDO with no bit shifted since: driven while SELECT is low, and at high impedance while it is high (R165). -/
def Hp.freshSdo (p : Hp) : Option (List Bool) := if p.select = .asserted then some [] else none

/-- RESET_ASSERT (R25, R65, R97, R118, R133, R155, R183). -/
def execResetAssert (s : State) : Host.Outcome State Fault Refusal :=
  let s1 := pointerReset (changeSetReset s.settled)
  let s2 := dropLine (s1.setSe s1.se.halted)
  let s3 := s2.setHp s2.hp.resetAsserted
  done (s3.setPins { s3.pins with sdo := s3.hp.freshSdo })

/-- RESET_RELEASE (R182, R183): HP becomes IDLE if SELECT is high and HELD if it is low. A line already released does not
change. -/
def execResetRelease (s : State) : Host.Outcome State Fault Refusal :=
  let s := s.settled
  if s.hp.resetLine = .asserted then
    done (s.setHp { s.hp with
      resetLine := .released
      trans := if s.hp.select = .released then .idle else .held })
  else done s

/-- POWER_ON (R24, R64, R79, R96, R118, R133, R154, R182): every block takes its power-on state, and the line records take
the levels at which the lines stand. The column drivers and the model's own fields are not the part's, and stay. -/
def execPowerOn (select guard fallback : LineLevel) (s : State) : Host.Outcome State Fault Refusal :=
  done
    { rgt := Rgt.powerOn guard
      csu := Csu.powerOn
      se := Se.powerOn fallback
      lc := ⟨[], 0⟩
      cou := ⟨none, 0⟩
      pu := Pu.powerOn
      hp := Hp.powerOn select
      pins := Pins.powerOn select
      panel := s.panel
      freeReads := s.freeReads
      pending := s.pending }

/-- SOFT_RESET_ACTION (R181): the soft reset that is due acts. When none is due there is none to act: it has acted
before another event already, or its request was not taken (R180). -/
def execSoftResetAction (s : State) : Host.Outcome State Fault Refusal := done s.settled

end Sys2Proof.Machine
end

