-- ==== Sys2Proof/Machine/Port.lean ====
section
/-! DEFINITION. The host port (chapter 10): SELECT_FALL, SELECT_RISE, REQUEST_BYTE_RECEIVED, FRAMING_FAULT,
REPLY_BYTE_SHIFTED and REPLY_COMPLETE, the one way in which the bits of SDI make a byte, and the one way in which every request row
is judged and handed to its owner. -/

namespace Sys2Proof.Machine
open Sys2Proof

/-- A transaction's frame before its first byte (R167). -/
def Frame.empty : Frame := ⟨none, none, [], 0⟩

/-- The next byte of the request is its check byte: the kind, the length and as many parameter bytes as the length says
have been received (R169: HP frames every request by the length byte as given). -/
def Frame.atCheckByte (f : Frame) : Bool :=
  match f.kind, f.length with
  | some _, some n => f.params.length == n.toNat
  | _, _ => false

/-- A byte of the request other than its check byte (R167): it becomes the kind, then the length, then a parameter, and
runs through the CRC register (R168). -/
def Frame.take (f : Frame) (b : Byte) : Frame :=
  let f := { f with crc := crcByte f.crc b }
  match f.kind, f.length with
  | none, _ => { f with kind := some b }
  | some _, none => { f with length := some b }
  | some _, some _ => { f with params := f.params ++ [b] }

/-- The judgement of a request whose check byte has arrived (R169): the first check that fails, in the order CHECK,
UNKNOWN, LENGTH. -/
def Frame.judge (f : Frame) (check : Byte) : Option FramingError :=
  if crcByte f.crc check ≠ 0 then some .check
  else
    match RequestKind.ofCode (f.kind.getD 0) with
    | none => some .unknown
    | some k => if (f.length.getD 0).toNat = k.paramLength then none else some .length

/-- The reply code of a framing fault (R169). -/
def FramingError.code : FramingError → ReplyCode
  | .check => .check
  | .unknown => .unknown
  | .length => .length

/-- The byte that SDO carries, bit by bit, in the next byte the host clocks: a byte of the reply in REPLYING (R171), and 0x00 in every
other state (R167). -/
def TransState.outByte : TransState → Byte
  | .replying reply sent _ => byteAt reply sent
  | .idle => 0
  | .receiving _ => 0
  | .draining => 0
  | .held => 0

/-- A byte has crossed the port, and HP is at the first bit of the next (R165, R167): SDO has carried the eight bits of the byte
that was its to carry. -/
def State.endByte (s : State) (trans : TransState) : State :=
  (s.setHp { s.hp with trans := trans, bits := [] }).setPins { s.pins with sdo := some (byteBits s.hp.trans.outByte) }

/-- HP is clocked (R165): the levels sampled on SDI join the bits of the byte in progress, while SDO carries the bits of its own, and
with the eighth bit the byte is whole and its event comes about. While SELECT is high SCLK and SDI are ignored; while RESET is held
SCLK is ignored and SDO carries 0 (R183). -/
def State.clock (s : State) (sdi : SdiBits) (event : Byte → Host.Outcome State Fault Refusal) :
    Host.Outcome State Fault Refusal :=
  if s.hp.select = .released then done s
  else if s.hp.resetLine = .asserted then done (s.setPins { s.pins with sdo := some (List.replicate sdi.length false) })
  else
    let bits := s.hp.bits ++ sdi
    if bits.length < 8 then
      done ((s.setHp { s.hp with bits := bits }).setPins
        { s.pins with sdo := some ((byteBits s.hp.trans.outByte).take bits.length) })
    else if bits.length = 8 then event (readByte bits)
    else .refused .bitsPastTheByte

/-- What is left of the byte in progress, as levels of SDI: in a reply HP makes no use of the levels (R171), and only their number
counts. -/
def State.restOfByte (s : State) : SdiBits := List.replicate (8 - s.hp.bits.length) false

/-- HP places an answer in the reply, at the last bit of the check byte, and the state becomes REPLYING (R167, R170). SDO carried 0x00
during the check byte. -/
def State.replyWith (s : State) (code : ReplyCode) (bytes : List Byte) (softReset : Bool) : State :=
  (s.setHp { s.hp with trans := .replying (encodeReply code bytes) 0 softReset, bits := [] }).setPins
    { s.pins with sdo := some (byteBits 0) }

/-- A request that fails the judgement is answered with that code and length 0, sets that flag, and is not taken (R169). -/
def State.faultReply (s : State) (e : FramingError) : State :=
  (s.setHp (s.hp.setFault e)).replyWith e.code [] false

/-- A byte clocked outside a request and a reply is ignored, and SDO carries 0x00 (R167, R172, R183). -/
def State.ignoreByte (s : State) : State := s.endByte s.hp.trans

/-- An owner's answer to a request (R170): the state it leaves, its reply code and, for DONE, the reply bytes. -/
structure Answer where
  state : State
  code : ReplyCode
  bytes : List Byte

/-- The owner refuses with a code: no state changes and the reply length is 0 (R170, R175). -/
def Answer.refuse (s : State) (code : ReplyCode) : Answer := ⟨s, code, []⟩

/-- A request row: the check byte of a frame of this kind arrives. HP judges the frame (R169), and a request that passes is
one event at its owner, whose answer goes into the reply (R170). In IDLE, DRAINING and HELD the byte is ignored. -/
def takeRequest (k : RequestKind) (sdi : SdiBits) (owner : List Byte → State → Answer) (s : State) :
    Host.Outcome State Fault Refusal :=
  s.clock sdi fun check =>
  match s.hp.trans with
  | .receiving f =>
    if f.atCheckByte then
      if f.kind = some k.code then
        match f.judge check with
        | some e => done (s.faultReply e)
        | none =>
          let a := owner f.params s
          done (a.state.replyWith a.code a.bytes (k == .softReset))
      else .refused .frameOfOtherKind
    else .refused .notAtCheckByte
  | .replying _ _ _ => .refused .notAtCheckByte
  | .idle => done s.ignoreByte
  | .draining => done s.ignoreByte
  | .held => done s.ignoreByte

/-- FRAMING_FAULT (R169): the check byte of a request that fails the judgement arrives. -/
def execFramingFault (sdi : SdiBits) (s : State) : Host.Outcome State Fault Refusal :=
  let s := s.settled
  s.clock sdi fun check =>
  match s.hp.trans with
  | .receiving f =>
    if f.atCheckByte then
      match f.judge check with
      | some e => done (s.faultReply e)
      | none => .refused .frameNotFaulty
    else .refused .notAtCheckByte
  | .replying _ _ _ => .refused .notAtCheckByte
  | .idle => done s.ignoreByte
  | .draining => done s.ignoreByte
  | .held => done s.ignoreByte

/-- SELECT_FALL (R165, R167, R183): the bit count starts again from zero and SDO is driven; in IDLE a transaction begins, at the kind
byte; while RESET is held the fall is ignored. A line already low does not fall. -/
def execSelectFall (s : State) : Host.Outcome State Fault Refusal :=
  let s := s.settled
  if s.hp.select = .asserted then done s
  else
    done ((s.setHp { s.hp with
        select := .asserted
        bits := []
        trans := if s.hp.trans = .idle ∧ s.hp.resetLine = .released then .receiving Frame.empty else s.hp.trans }).setPins
      { s.pins with sdo := some [] })

/-- HP at a rise of SELECT (R165, R167, R173, R174, R180): the bits of a partial byte are discarded, and that byte counts as not
received; a request is cut, setting CUT if a whole byte of it was received; the rest of a reply is lost, and a SOFT RESET whose reply is cut acts; DRAINING ends; HELD ends unless RESET is held (R182). -/
def Hp.selectRisen (p : Hp) : Hp :=
  let p := { p with select := .released, bits := [] }
  match p.trans with
  | .idle => p
  | .receiving f => { p with trans := .idle, cutFault := p.cutFault || f.kind.isSome }
  | .replying _ _ soft => { p with trans := .idle, softResetDue := soft }
  | .draining => { p with trans := .idle }
  | .held => { p with trans := if p.resetLine = .asserted then .held else .idle }

/-- SELECT_RISE (R173, R174). SDO is not driven while SELECT is high (R165). A line already high does not rise. -/
def execSelectRise (s : State) : Host.Outcome State Fault Refusal :=
  let s := s.settled
  if s.hp.select = .released then done s
  else done ((s.setHp s.hp.selectRisen).setPins { s.pins with sdo := none })

/-- REQUEST_BYTE_RECEIVED (R167, R168): a byte of the request other than its check byte. In IDLE, DRAINING and HELD the
byte is ignored. -/
def execRequestByteReceived (sdi : SdiBits) (s : State) : Host.Outcome State Fault Refusal :=
  let s := s.settled
  s.clock sdi fun b =>
  match s.hp.trans with
  | .receiving f =>
    if f.atCheckByte then .refused .notAtRequestByte
    else done (s.endByte (.receiving (f.take b)))
  | .replying _ _ _ => .refused .notAtRequestByte
  | .idle => done s.ignoreByte
  | .draining => done s.ignoreByte
  | .held => done s.ignoreByte

/-- REPLY_BYTE_SHIFTED (R171): a byte of the reply other than the reply check byte leaves on SDO, whatever comes on SDI. In IDLE,
DRAINING and HELD the byte clocked is ignored. -/
def execReplyByteShifted (s : State) : Host.Outcome State Fault Refusal :=
  let s := s.settled
  s.clock s.restOfByte fun _ =>
  match s.hp.trans with
  | .receiving _ => .refused .notAtReplyByte
  | .replying reply sent soft =>
    if sent + 1 < reply.length then done (s.endByte (.replying reply (sent + 1) soft)) else .refused .notAtReplyByte
  | .idle => done s.ignoreByte
  | .draining => done s.ignoreByte
  | .held => done s.ignoreByte

/-- REPLY_COMPLETE (R172): the reply check byte has been shifted and the state becomes DRAINING; the soft reset of a SOFT
RESET request then acts (R180). In IDLE, DRAINING and HELD the byte clocked is ignored. -/
def execReplyComplete (s : State) : Host.Outcome State Fault Refusal :=
  let s := s.settled
  s.clock s.restOfByte fun _ =>
  match s.hp.trans with
  | .receiving _ => .refused .notAtReplyCheck
  | .replying reply sent soft =>
    if sent + 1 = reply.length then
      let t := s.endByte .draining
      done (t.setHp { t.hp with softResetDue := soft })
    else .refused .notAtReplyCheck
  | .idle => done s.ignoreByte
  | .draining => done s.ignoreByte
  | .held => done s.ignoreByte

end Sys2Proof.Machine
end

