-- ==== Sys2Proof/Machine/Scan.lean ====
section
/-! DEFINITION. The Scan Engine (chapter 5): SET TIMING, READ TIMING, START SCAN, STOP SCAN, and the happenings of a frame that
compose nothing: FRAME_START, RETRACE_LINE and STOP_POINT. -/

namespace Sys2Proof.Machine
open Sys2Proof

/-! ### The timing set -/

/-- Check 2 of R83: each field lies in its own range. -/
def Timing.fieldsInRange (t : Timing) : Bool :=
  (t.cellWidth == 8 || t.cellWidth == 16) && decide (12 ≤ t.totalColumns) && decide (t.totalColumns ≤ 255)
    && decide (8 ≤ t.displayedLines) && decide (t.displayedLines ≤ 800)
    && decide (1 ≤ t.fallbackStride) && decide (t.fallbackStride ≤ 4095)

/-- Check 3 of R83: the relations of R80. -/
def Timing.fieldsRelate (t : Timing) : Bool :=
  decide (8 ≤ t.displayedColumns) && decide (t.displayedColumns + 4 ≤ t.totalColumns)
    && decide (t.displayedColumns ≤ 200) && decide (t.displayedLines + 2 ≤ t.totalLines)
    && decide (t.totalLines ≤ 1023) && decide (t.displayedColumns ≤ t.fallbackStride)

/-- Check 4 of R83: every LIVE region and every RESERVED slot lies inside the new displayed area, by the rectangle its slot
stores. -/
def Timing.holdsRegions (t : Timing) (slots : SlotTable) : Bool :=
  (List.finRange 32).all fun i =>
    (slotAt slots i).state == .free
      || (slotAt slots i).record.rect.inside t.displayedColumns t.displayedLines

/-- SET TIMING at SE (R82, R83). DESIGN CHOICE (log entry 24, unsafe): the checks of R83 are made on a timing set equal to the one in
force as on any other, so it is refused with RANGE while a reservation lies outside the displayed area, where R83 says both that
such a reservation bounds every SET TIMING and that an equal timing set is taken (R190 too). -/
def setTimingRequest (p : List Byte) (s : State) : Answer :=
  let t := readTimingFields p
  if s.se.scan ≠ .stopped then .refuse s .state
  else if t.fieldsInRange && t.fieldsRelate && t.holdsRegions s.rgt.slots then
    ⟨s.setSe { s.se with timing := t, timingValid := true }, .done, []⟩
  else .refuse s .range

/-- SET_TIMING. -/
def execSetTiming (sdi : SdiBits) (s : State) : Host.Outcome State Fault Refusal :=
  takeRequest .setTiming sdi setTimingRequest s.settled

/-- READ TIMING at SE (R84); it changes nothing. -/
def readTimingRequest (_p : List Byte) (s : State) : Answer := ⟨s, .done, timingBytes s.se.timingValid s.se.timing⟩

/-- READ_TIMING. -/
def execReadTiming (sdi : SdiBits) (s : State) : Host.Outcome State Fault Refusal :=
  takeRequest .readTiming sdi readTimingRequest s.settled

/-! ### Starting and stopping -/

/-- START SCAN at SE (R86): taken when the scan is STOPPED and timing is valid. -/
def startScanRequest (_p : List Byte) (s : State) : Answer :=
  if s.se.scan = .stopped ∧ s.se.timingValid = true then
    ⟨s.setSe { s.se with scan := .running, frame := 0, place := .outside, stop := none }, .done, []⟩
  else .refuse s .state

/-- START_SCAN. -/
def execStartScan (sdi : SdiBits) (s : State) : Host.Outcome State Fault Refusal :=
  takeRequest .startScan sdi startScanRequest s.settled

/-- Where the stop point of a STOP SCAN taken in RUNNING falls (R87): at the end of the last displayed line while some
displayed line of the frame remains, and otherwise where the next frame start would have been raised. -/
def ScanPlace.stopPlace : ScanPlace → StopPlace
  | .outside => .nextFrameStart
  | .before _ => .lastLineEnd
  | .inLine _ => .lastLineEnd
  | .retrace _ => .nextFrameStart

/-- STOP SCAN at SE (R87). -/
def stopScanRequest (_p : List Byte) (s : State) : Answer :=
  match s.se.scan with
  | .running => ⟨s.setSe { s.se with scan := .stopping, stop := some s.se.place.stopPlace }, .done, []⟩
  | .stopped => ⟨s, .done, []⟩
  | .stopping => .refuse s .state

/-- STOP_SCAN. -/
def execStopScan (sdi : SdiBits) (s : State) : Host.Outcome State Fault Refusal :=
  takeRequest .stopScan sdi stopScanRequest s.settled

/-! ### The happenings of a frame -/

/-- What R88 calls the current line. -/
inductive CurrentLine where
  | none
  | line (y : Nat)
  | retrace
deriving DecidableEq, Repr

/-- The current line (R88, R89): "0 for the line start that follows" after a frame start, the line from its start to its end,
RETRACE during the retrace lines, none while STOPPED and from a START SCAN until its first frame start. Two moments R88 leaves open
are the model's choice (DESIGN CHOICE, log entry 6): between the end of line y − 1 and the start of line y the current line reads y
already, and between the end of the last displayed line and the retrace line or stop point that follows it reads RETRACE. -/
def ScanPlace.currentLine : ScanPlace → CurrentLine
  | .outside => .none
  | .before y => .line y
  | .inLine y => .line y
  | .retrace _ => .retrace

/-- The number of retrace lines of a frame (R80, R91). -/
def Timing.retraceLines (t : Timing) : Nat := t.totalLines - t.displayedLines

/-- The frame counter after a frame start at this place, where a frame start falls (R88, R89, R94): left as it is at the
first frame start after START SCAN, advanced by one after the last retrace line; none at any other place. -/
def Se.nextFrame (e : Se) : Option (BitVec 6) :=
  match e.place with
  | .outside => some e.frame
  | .retrace k => if k = e.timing.retraceLines then some (e.frame + 1) else none
  | .before _ => none
  | .inLine _ => none

/-- MADDR, RAST and DOUT while no cell is issued: FETCH inactive, DCLK stopped (R93) after the dots that were still to be shifted, and
the levels the spec does not state taken from Config (log entry 12). -/
def State.idlePins (s : State) (dots : List (BitVec 4)) (lsync fsync : Bool) : State :=
  (s.setPins { s.pins with
    maddr := Config.idleMaddr s.freeReads
    rast := Config.idleRast s.freeReads
    fetch := false
    dout := Config.idleDout s.freeReads
    dots := dots
    lsync := lsync
    fsync := fsync }).setFree (s.freeReads + 1)

/-- SE's own part of a frame start (R89, R95, R158): the counter, the sampling of FALLBACK, the current line 0, and FSYNC. -/
def State.beginFrame (s : State) (frame : BitVec 6) : State :=
  (s.setSe { s.se with
    frame := frame
    fallbackEffective := s.se.fallbackLine == .asserted
    place := .before 0
    tickOwed := true }).idlePins [] false true

/-- FRAME_START (R53, R88, R89, R150): while RUNNING, at the place R88 gives it. CSU takes it as an apply point when a set is
PENDING. PU's tick is taken within it when PU takes the frame start first, and is otherwise owed; a report that comes before an owed
tick is taken with the new flag, and the tick then judges what it left (DESIGN CHOICE, log entry 23, beside R161). While STOPPED no
frame start is raised (R85). -/
def execFrameStart (order : FrameOrder) (s : State) : Host.Outcome State Fault Refusal :=
  let s := s.settled
  match s.se.scan with
  | .stopped => done s
  | .stopping => .refused .happeningOutOfPlace
  | .running =>
    match s.se.nextFrame with
    | none => .refused .happeningOutOfPlace
    | some frame =>
      match order with
      | .csuFirst => done (applyIfPending (s.beginFrame frame))
      | .puFirst => done (applyIfPending (takeTick (s.beginFrame frame)))

/-- RETRACE_LINE (R91): a retrace line passes, with nothing composed, fetched or shifted. It falls after the last displayed
line, unless the stop point falls there, and before the next frame start. While STOPPED none is raised (R85). -/
def execRetraceLine (s : State) : Host.Outcome State Fault Refusal :=
  let s := s.settled
  if s.se.scan = .stopped then done s
  else
    match s.se.place with
    | .retrace k =>
      if k < s.se.timing.retraceLines ∧ s.se.stop ≠ some .lastLineEnd then
        done ((s.setSe { s.se with place := .retrace (k + 1) }).idlePins [] false false)
      else .refused .happeningOutOfPlace
    | .outside => .refused .happeningOutOfPlace
    | .before _ => .refused .happeningOutOfPlace
    | .inLine _ => .refused .happeningOutOfPlace

/-- The scan stands where its stop point falls (R87, R92). -/
def Se.atStopPoint (e : Se) : Bool :=
  match e.stop, e.place with
  | some .lastLineEnd, .retrace k => k == 0
  | some .nextFrameStart, .outside => true
  | some .nextFrameStart, .retrace k => k == e.timing.retraceLines
  | _, _ => false

/-- STOP_POINT (R53, R92): the stop point ends a stopping scan, and CSU takes it as an apply point when a set is PENDING. PU
takes no tick. While STOPPED none is raised (R85). -/
def execStopPoint (s : State) : Host.Outcome State Fault Refusal :=
  let s := s.settled
  match s.se.scan with
  | .stopped => done s
  | .running => .refused .happeningOutOfPlace
  | .stopping =>
    if s.se.atStopPoint then
      done (applyIfPending
        (((s.setSe { s.se with scan := .stopped, place := .outside, stop := none }).setCou ⟨none, 0⟩).idlePins [] false false))
    else .refused .happeningOutOfPlace

end Sys2Proof.Machine
end

