-- ==== Sys2Proof/Machine/Compose.lean ====
section
/-! DEFINITION. The display path (chapters 6, 7 and 9): LINE_START builds the span list, CELL_ISSUE addresses one cell, resolves
it and shifts its dots, and LINE_END latches the line. -/

namespace Sys2Proof.Machine
open Sys2Proof

/-! ### The span list -/

/-- The owner of the cell (c, y) (R101): the first entry of the effective stacking order whose rectangle contains it. -/
def ownerOf (s : State) (order : List Entry) (c y : Nat) : Owner :=
  match order.find? fun e => e.contains s c y with
  | some (.region h) => .region h
  | some .fallback => .fallback
  | none => .background

/-- The maximal runs of a list of owners, the first of them at column c. -/
def runsFrom (c : Nat) : List Owner → List Span
  | [] => []
  | o :: rest =>
    match runsFrom (c + 1) rest with
    | [] => [⟨c, c, o⟩]
    | sp :: more => if sp.owner = o then ⟨c, sp.last, o⟩ :: more else ⟨c, c, o⟩ :: sp :: more

/-- The span list of line y (R102): the maximal runs of the displayed columns that share one owner. -/
def spanList (s : State) (y : Nat) : List Span :=
  let order := effectiveOrder s
  runsFrom 0 ((List.range s.se.timing.displayedColumns).map fun c => ownerOf s order c y)

/-- LINE_START (R90, R99): SE sets the current line and LC builds its span list. It falls after CSU and PU have taken the
frame start (R89) and after the line before it has ended (R88). While STOPPED none is raised (R85). -/
def execLineStart (s : State) : Host.Outcome State Fault Refusal :=
  let s := s.settled
  if s.se.scan = .stopped then done s
  else
    match s.se.place with
    | .before y =>
      if s.se.tickOwed then .refused .happeningOutOfPlace
      else
        done (((((s.setSe { s.se with place := .inLine y }).setLc ⟨spanList s y, 0⟩).setPanel
          { s.panel with shifted := [] })).setPins { s.pins with dots := [], lsync := false, fsync := false })
    | .outside => .refused .happeningOutOfPlace
    | .inLine _ => .refused .happeningOutOfPlace
    | .retrace _ => .refused .happeningOutOfPlace

/-! ### Addresses -/

/-- The owner of a column by the span list (R104). -/
def spanOwner (spans : List Span) (c : Nat) : Owner :=
  match spans.find? fun sp => decide (sp.start ≤ c) && decide (c ≤ sp.last) with
  | some sp => sp.owner
  | none => .background

/-- The line within the grid of a TEXT region (R106): v′ = y − top + scroll offset. -/
def gridLine (r : RegionRecord) (y : Nat) : Nat := y - r.rect.top + r.source.scroll

/-- The address of a TEXT cell (R106), modulo 16,777,216 (R111). -/
def textAddress (r : RegionRecord) (c y : Nat) : Addr :=
  BitVec.ofNat 24
    (r.source.base.toNat + gridLine r y / r.source.cellHeight * r.source.stride + (c - r.rect.left))

/-- The raster of a TEXT cell (R106). -/
def textRaster (r : RegionRecord) (y : Nat) : BitVec 5 := BitVec.ofNat 5 (gridLine r y % r.source.cellHeight)

/-- The address of a BITMAP cell (R108), modulo 16,777,216 (R111). -/
def bitmapAddress (r : RegionRecord) (c y : Nat) : Addr :=
  BitVec.ofNat 24 (r.source.base.toNat + (y - r.rect.top) * r.source.stride + (c - r.rect.left))

/-- The address of a FALLBACK cell (R110), modulo 16,777,216 (R111). -/
def fallbackAddress (t : Timing) (c y : Nat) : Addr :=
  BitVec.ofNat 24 (t.fallbackBase.toNat + y * t.fallbackStride + c)

/-- The cell LC issues for column c of line y, with the data the memory returns: PDATA is taken for a fetched cell, and ADATA
for a TEXT cell (R104, R105, R106, R108, R109, R110). -/
def cellOf (s : State) (owner : Owner) (c y : Nat) (pdata : BitVec 16) (adata : Byte) : Cell :=
  match owner with
  | .background => ⟨.background, false, 0, 0, false, false, none, 0, 0, 0⟩
  | .fallback => ⟨.fallback, true, fallbackAddress s.se.timing c y, 0, false, false, none, 0, pdata, 0⟩
  | .region h =>
    let r := (slotAt s.rgt.slots h.slot).record
    match r.source.kind with
    | .text =>
      ⟨.text, true, textAddress r c y, textRaster r y, r.look.reverse, r.look.blinkEnable, r.cursor,
        r.source.cellHeight, pdata, adata⟩
    | .bitmap =>
      ⟨.bitmap, true, bitmapAddress r c y, 0, r.look.reverse, r.look.blinkEnable, none, 0, pdata, 0⟩

/-! ### Resolving dots -/

/-- The attribute flags (R121, R188), bits 7 to 4 of the byte. -/
def Cell.fill (x : Cell) : Bool := x.attr.getLsbD 7
/-- The blank flag, bit 6. -/
def Cell.blank (x : Cell) : Bool := x.attr.getLsbD 6
/-- The cell blink flag, bit 5. -/
def Cell.blink (x : Cell) : Bool := x.attr.getLsbD 5
/-- The cell reverse flag, bit 4. -/
def Cell.cellReverse (x : Cell) : Bool := x.attr.getLsbD 4

/-- The cell blink phase is hidden when the frame counter is 32 to 63 (R123). -/
def blinkHidden (frame : BitVec 6) : Bool := decide (32 ≤ frame.toNat)

/-- The cursor phases (R123): STEADY always on, SLOW on for 0 to 31, FAST on when f div 16 is even. -/
def cursorOn (frame : BitVec 6) : BlinkMode → Bool
  | .steady => true
  | .slow => decide (frame.toNat < 32)
  | .fast => decide (frame.toNat / 16 % 2 = 0)

/-- The pattern as dots, leftmost first (R120): PDATA[7] to PDATA[0] of 8-dot cells, PDATA[15] to PDATA[0] of 16-dot cells. -/
def patternDots (width : Nat) (pattern : BitVec 16) : List Bool :=
  (List.range width).map fun i => pattern.getLsbD (width - 1 - i)

/-- The base dots (R122, R130): fill, blank, the hidden phase of the cell blink, or the pattern; a BACKGROUND cell's are off. -/
def baseDots (width : Nat) (frame : BitVec 6) (x : Cell) : List Bool :=
  match x.kind with
  | .background => List.replicate width false
  | .bitmap => patternDots width x.pattern
  | .fallback => patternDots width x.pattern
  | .text =>
    if x.fill then List.replicate width true
    else if x.blank then List.replicate width false
    else if x.blink && x.blinkEnable && blinkHidden frame then List.replicate width false
    else patternDots width x.pattern

/-- A region's cursor part is present on the cell (R125, R126): the cell is TEXT, its reduced address is the cursor
address, and its raster lies from the first raster to the lesser of the last raster and cell height − 1. -/
def cursorPresent (x : Cell) (c : CursorPart) : Bool :=
  x.kind == .text && x.address == c.address && decide (c.firstRaster ≤ x.raster.toNat)
    && decide (x.raster.toNat ≤ min c.lastRaster (x.cellHeight - 1))

/-- The cursor's inversion holds (R127): present, with its blink mode in the on phase. -/
def cursorInverts (frame : BitVec 6) (x : Cell) : Bool :=
  match x.cursor with
  | none => false
  | some c => cursorPresent x c && cursorOn frame c.mode

/-- The inversions of a cell combined by count (R128): true when the count is odd. For a BITMAP cell only the region's
reverse can hold, for FALLBACK and BACKGROUND none (R131). -/
def inverted (frame : BitVec 6) (x : Cell) : Bool :=
  match x.kind with
  | .text => ((x.cellReverse != x.reverse) != cursorInverts frame x)
  | .bitmap => x.reverse
  | .fallback => false
  | .background => false

/-- The dots of a cell as shifted, leftmost first (R128). -/
def resolve (width : Nat) (frame : BitVec 6) (x : Cell) : List Bool :=
  (baseDots width frame x).map fun d => d != inverted frame x

/-- Dots in groups of four, leftmost group first, DOUT[3] carrying the leftmost dot of each (R132). -/
def groupDots : List Bool → List (BitVec 4)
  | a :: b :: c :: d :: rest =>
    (BitVec.ofBool a ++ BitVec.ofBool b ++ BitVec.ofBool c ++ BitVec.ofBool d) :: groupDots rest
  | _ => []

/-- LC issues a cell to the memory (R104, R105): MADDR, RAST and FETCH carry its address, raster and fetch state. -/
def issueCell (x : Cell) (s : State) : State :=
  s.setPins
    { s.pins with maddr := x.address, rast := x.raster, fetch := x.fetched, lsync := false, fsync := false }

/-- The groups of a cell in the order in which they leave (R128, R132). -/
def State.cellGroups (s : State) (x : Cell) : List (BitVec 4) := groupDots (resolve s.se.timing.cellWidth s.se.frame x)

/-- The groups of the cell COU holds that are still to be shifted (R119, R132). -/
def State.groupsLeft (s : State) : List (BitVec 4) :=
  match s.cou.cell with
  | some x => (s.cellGroups x).drop s.cou.shifted
  | none => []

/-- COU after so many groups of a cell: it holds the cell until its last group has been shifted (R119). -/
def couAfter (s : State) (x : Cell) (shifted : Nat) : Cou :=
  if shifted < (s.cellGroups x).length then ⟨some x, shifted⟩ else ⟨none, 0⟩

/-- Groups leave on DOUT, one at each DCLK, into the column drivers (R132). DESIGN CHOICE (log entry 12, unsafe for a claim about
DOUT): R132 gives DOUT at each DCLK only, and where no group leaves, DOUT keeps the level it carried. -/
def shiftOut (out : List (BitVec 4)) (s : State) : State :=
  (s.setPins { s.pins with dots := out, dout := out.getLastD s.pins.dout }).setPanel
    { s.panel with shifted := s.panel.shifted ++ out }

/-- CELL_ISSUE (R104, R119, R132, R133): the next displayed column's cell of the line in progress. COU shifts what is left of the cell
before, "the dots of each cell are shifted before those of the next" (R119), takes the new cell, and has shifted so many of its
groups when the next command is taken; the rest follow with the next cell or the end of the line, unless a reset drops them. While
STOPPED none is issued (R85, R118). -/
def execCellIssue (data : CellData) (groups : Nat) (s : State) : Host.Outcome State Fault Refusal :=
  let s := s.settled
  if s.se.scan = .stopped then done s
  else
    match s.se.place with
    | .inLine y =>
      if s.lc.column < s.se.timing.displayedColumns then
        let x := cellOf s (spanOwner s.lc.spans s.lc.column) s.lc.column y data.pdata data.adata
        let out := s.groupsLeft ++ (s.cellGroups x).take groups
        done (((shiftOut out (issueCell x s)).setCou (couAfter s x groups)).setLc { s.lc with column := s.lc.column + 1 })
      else .refused .happeningOutOfPlace
    | .outside => .refused .happeningOutOfPlace
    | .before _ => .refused .happeningOutOfPlace
    | .retrace _ => .refused .happeningOutOfPlace

/-- The place after the end of line y (R88): before the next displayed line, or in the retrace after the last. -/
def Timing.afterLine (t : Timing) (y : Nat) : ScanPlace :=
  if y + 1 < t.displayedLines then .before (y + 1) else .retrace 0

/-- LINE_END (R90, R132): after the last displayed column's cell, whose last groups are shifted. LSYNC latches the shifted dots, and
LC empties the span list. While STOPPED none is raised (R85). -/
def execLineEnd (s : State) : Host.Outcome State Fault Refusal :=
  let s := s.settled
  if s.se.scan = .stopped then done s
  else
    match s.se.place with
    | .inLine y =>
      if s.lc.column = s.se.timing.displayedColumns then
        let dots := s.panel.shifted ++ s.groupsLeft
        done (((((s.setSe { s.se with place := s.se.timing.afterLine y }).setLc ⟨[], 0⟩).setCou ⟨none, 0⟩).setPanel
          ⟨dots, dots⟩).idlePins s.groupsLeft true false)
      else .refused .happeningOutOfPlace
    | .outside => .refused .happeningOutOfPlace
    | .before _ => .refused .happeningOutOfPlace
    | .retrace _ => .refused .happeningOutOfPlace

end Sys2Proof.Machine
end

