-- ==== Sys2Proof/Machine/Pointer.lean ====
section
/-! DEFINITION. The Pointer Unit (chapter 8): the receiver and the reports (POINTER_CHARACTER_KEPT, POINTER_LINK_FAULT,
REPORT_DISCARDED, CONTACT, LIFT), the ticks (POINTER_TICK, CONTACT_TIMEOUT) and the requests POINTER SETTINGS, READ TOUCH and
PROBE. -/

namespace Sys2Proof.Machine
open Sys2Proof

/-! ### The receiver (R135) -/

/-- A LINK fault, which sets its flag while the pointer is enabled (R136, R137). -/
def Pu.setLink (p : Pu) : Pu := { p with linkFault := p.linkFault || p.enable }

/-- What the receiver makes of a character (R135). -/
inductive CharEvent where
  /-- The byte is kept: the receiver's next state. -/
  | kept (r : Receiver)
  /-- A LINK fault: the receiver's next state. -/
  | faulted (r : Receiver)
  /-- The byte is the check byte of the report whose first four bytes are given. -/
  | completes (bytes : List Byte)
deriving DecidableEq, Repr

/-- The table of R135. -/
def Receiver.on (r : Receiver) (ch : PrxChar) : CharEvent :=
  if ch.stop then
    match r, ch.marker with
    | .waiting, true => .kept (.collecting [ch.data])
    | .waiting, false => .faulted .waiting
    | .collecting _, true => .faulted (.collecting [ch.data])
    | .collecting bytes, false =>
      if bytes.length < 4 then .kept (.collecting (bytes ++ [ch.data])) else .completes bytes
  else .faulted .waiting

/-- POINTER_CHARACTER_KEPT (R135, R188): the receiver keeps the character. With the line high where a start bit would stand no
character arrives. -/
def execPointerCharacterKept (line : PrxBits) (s : State) : Host.Outcome State Fault Refusal :=
  let s := s.settled
  match readCharacter line with
  | none => done s
  | some ch =>
    match s.pu.receiver.on ch with
    | .kept r => done (s.setPu { s.pu with receiver := r })
    | .faulted _ => .refused .characterNotKept
    | .completes _ => .refused .characterNotKept

/-- POINTER_LINK_FAULT (R135, R188): a character is discarded, or interrupts a report, with a LINK fault. With the line high where a
start bit would stand no character arrives. -/
def execPointerLinkFault (line : PrxBits) (s : State) : Host.Outcome State Fault Refusal :=
  let s := s.settled
  match readCharacter line with
  | none => done s
  | some ch =>
    match s.pu.receiver.on ch with
    | .faulted r => done (s.setPu { s.pu.setLink with receiver := r })
    | .kept _ => .refused .characterKept
    | .completes _ => .refused .characterKept

/-! ### Reports (R136, R137) -/

/-- The kinds of report (R188). -/
inductive ReportKind where
  | contact
  | lift
deriving DecidableEq, Repr

/-- The kind a kind byte is the code of (R188). -/
def ReportKind.ofByte (b : Byte) : Option ReportKind :=
  if b = 1 then some .contact else if b = 2 then some .lift else none

/-- The judgement of a completed report. -/
inductive ReportVerdict where
  /-- Dropped with no effect: the pointer is disabled (R137), or the RESET line is held (R155). -/
  | dropped
  /-- Discarded with a LINK fault (R136, checks 1 and 2). -/
  | link
  /-- Discarded with a RANGE fault (R136, check 3). -/
  | range
  /-- Taken. -/
  | taken (k : ReportKind) (p : Point)
deriving DecidableEq, Repr

/-- The check byte of a report: the sum of its first four bytes modulo 256 (R136). -/
def reportSum (bytes : List Byte) : Byte := byteAt bytes 0 + byteAt bytes 1 + byteAt bytes 2 + byteAt bytes 3

/-- The point of a report: x, and y high × 256 + y low (R188). -/
def reportPoint (bytes : List Byte) : Point := ⟨num1 bytes 1, num2 bytes 2⟩

/-- The point lies inside the displayed area (R81, R136); while timing-valid is clear there is none. -/
def inArea (s : State) (p : Point) : Bool :=
  match s.se.area with
  | some (columns, lines) => decide (p.x < columns) && decide (p.y < lines)
  | none => false

/-- The judgement of R136 on a completed report, after R137 and R155. -/
def judgeReport (s : State) (bytes : List Byte) (check : Byte) : ReportVerdict :=
  if s.pu.enable = false ∨ s.hp.resetLine = .asserted then .dropped
  else if check ≠ reportSum bytes then .link
  else
    match ReportKind.ofByte (byteAt bytes 0) with
    | none => .link
    | some k => if inArea s (reportPoint bytes) then .taken k (reportPoint bytes) else .range

/-- Where the report's point lies for a captured region (R144): PRESSED inside its rectangle in the applied table, and
PRESSED_AWAY outside, covered or not. -/
def insideRegion (t : SlotTable) (h : Handle) (p : Point) : Bool := (slotAt t h.slot).record.rect.contains p.x p.y

/-- The touch part of a region at the CONTACT that captures it (R143). -/
def TouchPart.pressedAt (q : TouchPart) (p : Point) : TouchPart :=
  { q with state := .pressed, press := p, last := p, news := { q.news with press := true } }

/-- The touch part of the captured region at a CONTACT while captured (R144). -/
def TouchPart.movedTo (q : TouchPart) (p : Point) (inside : Bool) : TouchPart :=
  { q with state := if inside then .pressed else .pressedAway, last := p }

/-- The touch part of the captured region at a LIFT (R145). -/
def TouchPart.liftedAt (q : TouchPart) (p : Point) (inside : Bool) : TouchPart :=
  { q with
    state := .idle
    last := p
    activations := if inside then min 15 (q.activations + 1) else q.activations
    news := if inside then { q.news with release := true } else { q.news with releaseAway := true } }

/-- A taken CONTACT (R137, R143, R144). -/
def takeContact (p : Point) (s : State) : State :=
  match s.pu.contact with
  | .up =>
    match hitTest s p with
    | .hit h =>
      (s.setSlots (mapTouch s.rgt.slots h.slot (·.pressedAt p))).setPu
        { s.pu with silence := 0, contact := .captured h }
    | .none => s.setPu { s.pu with silence := 0, contact := .unclaimed }
    | .blocked => s.setPu { s.pu with silence := 0, contact := .unclaimed }
  | .captured h =>
    (s.setSlots (mapTouch s.rgt.slots h.slot (·.movedTo p (insideRegion s.rgt.slots h p)))).setPu
      { s.pu with silence := 0 }
  | .unclaimed => s.setPu { s.pu with silence := 0 }

/-- A taken LIFT (R137, R145). -/
def takeLift (p : Point) (s : State) : State :=
  match s.pu.contact with
  | .up => s.setPu { s.pu with silence := 0 }
  | .captured h =>
    (s.setSlots (mapTouch s.rgt.slots h.slot (·.liftedAt p (insideRegion s.rgt.slots h p)))).setPu
      { s.pu with silence := 0, contact := .up }
  | .unclaimed => s.setPu { s.pu with silence := 0, contact := .up }

/-- A completed report acts as it is judged (R136, R137); the receiver is WAITING again (R135). -/
def reportEffect (v : ReportVerdict) (s : State) : State :=
  let s := s.setPu { s.pu with receiver := .waiting }
  match v with
  | .dropped => s
  | .link => s.setPu { s.pu with linkFault := true }
  | .range => s.setPu { s.pu with rangeFault := true }
  | .taken .contact p => takeContact p s
  | .taken .lift p => takeLift p s

/-- The event of a completed report: what a row does with the report's first four bytes and its check byte, when the character on the
line completes one (R135, R188). With the line high where a start bit would stand no character arrives. A report is an event of its
own wherever it falls; between a frame start that CSU has taken and PU's tick of it, it is taken before the tick (DESIGN CHOICE, log
entry 23). -/
def onReport (line : PrxBits) (s : State) (act : List Byte → Byte → Host.Outcome State Fault Refusal) :
    Host.Outcome State Fault Refusal :=
  match readCharacter line with
  | none => done s
  | some ch =>
    match s.pu.receiver.on ch with
    | .completes bytes => act bytes ch.data
    | .kept _ => .refused .noReportCompletes
    | .faulted _ => .refused .noReportCompletes

/-- A report of one kind completes with its check byte: it is judged, and acts as judged. -/
def completeReport (k : ReportKind) (line : PrxBits) (s : State) : Host.Outcome State Fault Refusal :=
  onReport line s fun bytes check =>
    if ReportKind.ofByte (byteAt bytes 0) = some k then done (reportEffect (judgeReport s bytes check) s)
    else .refused .reportOfOtherKind

/-- CONTACT (R136, R137, R143, R144): the check byte of a CONTACT report arrives. -/
def execContact (line : PrxBits) (s : State) : Host.Outcome State Fault Refusal := completeReport .contact line s.settled

/-- LIFT (R136, R137, R145): the check byte of a LIFT report arrives. -/
def execLift (line : PrxBits) (s : State) : Host.Outcome State Fault Refusal := completeReport .lift line s.settled

/-- The report is not taken. -/
def ReportVerdict.untaken : ReportVerdict → Bool
  | .taken _ _ => false
  | .dropped => true
  | .link => true
  | .range => true

/-- REPORT_DISCARDED (R136, R137, R155): a completed report that is not taken. -/
def execReportDiscarded (line : PrxBits) (s : State) : Host.Outcome State Fault Refusal :=
  let s := s.settled
  onReport line s fun bytes check =>
    if (judgeReport s bytes check).untaken then done (reportEffect (judgeReport s bytes check) s)
    else .refused .reportTaken

/-! ### Ticks -/

/-- POINTER_TICK (R146, R148): PU takes the frame start as a tick. While the scan is STOPPED no tick is raised (R155). -/
def execPointerTick (s : State) : Host.Outcome State Fault Refusal :=
  let s := s.settled
  if s.se.tickOwed then done (takeTick s)
  else if s.se.scan = .stopped then done s
  else .refused .noTickOwed

/-- CONTACT_TIMEOUT (R146): the tick that brings the silence count to the contact timeout (log entry 7). -/
def execContactTimeout (s : State) : Host.Outcome State Fault Refusal :=
  let s := s.settled
  if s.se.tickOwed then
    if tickTimesOut s.pu then done (takeTick s) else .refused .timeoutNotReached
  else if s.se.scan = .stopped then done s
  else .refused .noTickOwed

/-! ### Requests -/

/-- PU gives up the contact when the pointer is disabled (R138): a capture is cancelled with DISABLED, the contact is UP and
the silence count 0. -/
def disableContact (s : State) : State :=
  let s := cancelCapture .disabled s
  s.setPu { s.pu with contact := .up, silence := 0 }

/-- POINTER SETTINGS at PU (R138). -/
def pointerSettingsRequest (p : List Byte) (s : State) : Answer :=
  match readPointerSettings p with
  | none => .refuse s .range
  | some (enable, timeout) =>
    let s' := if s.pu.enable = true ∧ enable = false then disableContact s else s
    ⟨s'.setPu { s'.pu with enable := enable, timeout := timeout }, .done, []⟩

/-- POINTER_SETTINGS. -/
def execPointerSettings (sdi : SdiBits) (s : State) : Host.Outcome State Fault Refusal :=
  takeRequest .pointerSettings sdi pointerSettingsRequest s.settled

/-- A touch part after READ TOUCH (R152): the news flags cleared and the activation count 0. -/
def TouchPart.read (q : TouchPart) : TouchPart := { q with activations := 0, news := ⟨false, false, false, false⟩ }

/-- READ TOUCH at PU (R152). -/
def readTouchRequest (p : List Byte) (s : State) : Answer :=
  let h := readHandle p
  if isCurrent s.rgt.slots h then
    match (slotAt s.rgt.slots h.slot).touch with
    | some q => ⟨s.setSlots (mapTouch s.rgt.slots h.slot (·.read)), .done, touchBytes h q⟩
    | none => .refuse s .range
  else .refuse s .stale

/-- READ_TOUCH. -/
def execReadTouch (sdi : SdiBits) (s : State) : Host.Outcome State Fault Refusal :=
  takeRequest .readTouch sdi readTouchRequest s.settled

/-- PROBE at PU (R153): every entry of the effective stacking order whose rectangle contains the point, front first, and the
hit result; it changes nothing. -/
def probeRequest (p : List Byte) (s : State) : Answer :=
  let q := readPoint p
  if inArea s q then
    ⟨s, .done, probeBytes s (hitTest s q) ((effectiveOrder s).filter fun e => e.contains s q.x q.y)⟩
  else .refuse s .range

/-- PROBE. -/
def execProbe (sdi : SdiBits) (s : State) : Host.Outcome State Fault Refusal :=
  takeRequest .probe sdi probeRequest s.settled

end Sys2Proof.Machine
end

