-- ==== Sys2Proof/Machine/Regions.lean ====
section
/-! DEFINITION. The requests that RGT answers and the two line records (chapters 1, 2, 4 and section 5.5): READ REGION, READ
STACK, GUARD ON, GUARD OFF, GUARD_LINE_CHANGE and FALLBACK_LINE_CHANGE. -/

namespace Sys2Proof.Machine
open Sys2Proof

/-- READ REGION at RGT (R23): refused with STALE for a stale handle; it changes nothing. -/
def readRegionRequest (p : List Byte) (s : State) : Answer :=
  let h := readHandle p
  if isCurrent s.rgt.slots h then
    ⟨s, .done, regionBytes h (slotAt s.rgt.slots h.slot) (s.rgt.stack.idxOf h)⟩
  else .refuse s .stale

/-- READ_REGION. -/
def execReadRegion (sdi : SdiBits) (s : State) : Host.Outcome State Fault Refusal :=
  takeRequest .readRegion sdi readRegionRequest s.settled

/-- READ STACK at RGT (R38); it changes nothing. -/
def readStackRequest (_p : List Byte) (s : State) : Answer := ⟨s, .done, stackBytes s.rgt.slots s.rgt.stack⟩

/-- READ_STACK. -/
def execReadStack (sdi : SdiBits) (s : State) : Host.Outcome State Fault Refusal :=
  takeRequest .readStack sdi readStackRequest s.settled

/-- GUARD ON at RGT (R69). -/
def guardOnRequest (_p : List Byte) (s : State) : Answer := ⟨s.setRgt { s.rgt with guardEnable := true }, .done, []⟩

/-- GUARD_ON. -/
def execGuardOn (sdi : SdiBits) (s : State) : Host.Outcome State Fault Refusal :=
  takeRequest .guardOn sdi guardOnRequest s.settled

/-- GUARD OFF at RGT (R70): refused with GUARDED while the GUARD line is asserted, whatever the setting. -/
def guardOffRequest (_p : List Byte) (s : State) : Answer :=
  if s.rgt.guardLine = .asserted then .refuse s .guarded
  else ⟨s.setRgt { s.rgt with guardEnable := false }, .done, []⟩

/-- GUARD_OFF. -/
def execGuardOff (sdi : SdiBits) (s : State) : Host.Outcome State Fault Refusal :=
  takeRequest .guardOff sdi guardOffRequest s.settled

/-- GUARD_LINE_CHANGE (R67): the record takes the new level, and nothing else changes. -/
def execGuardLineChange (level : LineLevel) (s : State) : Host.Outcome State Fault Refusal :=
  let s := s.settled
  done (s.setRgt { s.rgt with guardLine := level })

/-- FALLBACK_LINE_CHANGE (R95): the record takes the new level; the fallback-effective flag stays. -/
def execFallbackLineChange (level : LineLevel) (s : State) : Host.Outcome State Fault Refusal :=
  let s := s.settled
  done (s.setSe { s.se with fallbackLine := level })

end Sys2Proof.Machine
end

