-- ==== Sys2Proof/Machine/Sets.lean ====
section
/-! DEFINITION. Publishing and withdrawing a change set, and its outcome (sections 3.3, 3.4, 3.7 and 3.8): PUBLISH, WITHDRAW,
DISCARD and READ OUTCOME. -/

namespace Sys2Proof.Machine
open Sys2Proof

/-- PUBLISH at CSU (R43, R51, R52, R54): the sequence number advances; while the scan is STOPPED the set is evaluated within
the request, and otherwise it becomes PENDING. -/
def publishRequest (_p : List Byte) (s : State) : Answer :=
  if s.csu.setState = .pending then .refuse s .busy
  else
    let seq := s.csu.seq + 1
    let numbered := s.setCsu { s.csu with seq := seq }
    if s.se.scan = .stopped then ⟨applySet numbered, .done, [seq, 1]⟩
    else ⟨numbered.setCsu { numbered.csu with setState := .pending }, .done, [seq, 0]⟩

/-- PUBLISH. -/
def execPublish (sdi : SdiBits) (s : State) : Host.Outcome State Fault Refusal :=
  takeRequest .publish sdi publishRequest s.settled

/-- WITHDRAW at CSU (R60): a PENDING set is withdrawn; in OPEN the reply is TOO_LATE and nothing changes. -/
def withdrawRequest (_p : List Byte) (s : State) : Answer :=
  if s.csu.setState = .pending then ⟨abandonSet .withdrawn s, .done, []⟩ else .refuse s .tooLate

/-- WITHDRAW. -/
def execWithdraw (sdi : SdiBits) (s : State) : Host.Outcome State Fault Refusal :=
  takeRequest .withdraw sdi withdrawRequest s.settled

/-- DISCARD at CSU (R50): in OPEN every reservation of the list is released and the list emptied; in PENDING it is refused
with BUSY. -/
def discardRequest (_p : List Byte) (s : State) : Answer :=
  if s.csu.setState = .pending then .refuse s .busy
  else
    ⟨(s.setSlots (releaseReservations s.rgt.slots s.csu.changes)).setCsu { s.csu with changes := [] }, .done, []⟩

/-- DISCARD. -/
def execDiscard (sdi : SdiBits) (s : State) : Host.Outcome State Fault Refusal :=
  takeRequest .discard sdi discardRequest s.settled

/-- READ OUTCOME at CSU (R63): the outcome record as it stands, and outcome-unread cleared. -/
def readOutcomeRequest (_p : List Byte) (s : State) : Answer :=
  ⟨s.setCsu { s.csu with unread := false }, .done, outcomeBytes s.csu.outcome⟩

/-- READ_OUTCOME. -/
def execReadOutcome (sdi : SdiBits) (s : State) : Host.Outcome State Fault Refusal :=
  takeRequest .readOutcome sdi readOutcomeRequest s.settled

end Sys2Proof.Machine
end

