-- ==== Sys2Proof/Machine/Staging.lean ====
section
/-! DEFINITION. The five staging requests (section 3.2): CREATE, AMEND, RETIRE, RESTACK and LOCK. -/

namespace Sys2Proof.Machine
open Sys2Proof

/-- Checks 1 and 2 of R44: the change set is OPEN, and the list holds fewer than 16 records. -/
def listFault (c : Csu) : Option ReplyCode :=
  if c.setState = .pending then some .busy
  else if 16 ≤ c.changes.length then some .full
  else none

/-- A record joins the end of the list, with the staging count just before as its index (R40, R41). -/
def State.stage (s : State) (target : Handle) (op : Operation) : State :=
  s.setCsu { s.csu with changes := s.csu.changes ++ [⟨s.csu.changes.length, target, op⟩] }

/-- The index of the record a staging request adds, as a reply byte (R41, R186). -/
def nextIndex (c : Csu) : Byte := BitVec.ofNat 8 c.changes.length

/-- A slot reserved for a CREATE (R3): RESERVED at its present generation, with the descriptor and no touch part. -/
def reserveSlot (t : SlotTable) (i : Fin 32) (d : RegionRecord) : SlotTable :=
  putSlot t i ⟨.reserved, (slotAt t i).gen, d, none⟩

/-- CREATE at CSU and RGT (R3, R44, R47). -/
def createRequest (p : List Byte) (s : State) : Answer :=
  match listFault s.csu with
  | some code => .refuse s code
  | none =>
    match readDescriptor p with
    | none => .refuse s .range
    | some d =>
      match lowestFree s.rgt.slots with
      | none => .refuse s .noSlot
      | some i =>
        let h := handleOf s.rgt.slots i
        ⟨(s.setSlots (reserveSlot s.rgt.slots i d)).stage h (.create d), .done, [h.toByte, nextIndex s.csu]⟩

/-- CREATE. -/
def execCreate (sdi : SdiBits) (s : State) : Host.Outcome State Fault Refusal :=
  takeRequest .create sdi createRequest s.settled

/-- Check 5 of R44 (R46): the target is a LIVE region that is locked in the applied table. -/
def lockedLive (t : SlotTable) (h : Handle) : Bool := isLive t h && (slotAt t h.slot).record.locked

/-- The staging checks of AMEND, RETIRE, RESTACK and LOCK in the order of R44, and the record added if they pass. The
payload is none where check 3 fails; check 5 applies to all but LOCK. -/
def stageChange (target : Handle) (payload : Option Operation) (lockChecked : Bool) (s : State) : Answer :=
  match listFault s.csu with
  | some code => .refuse s code
  | none =>
    match payload with
    | none => .refuse s .range
    | some op =>
      if !isCurrent s.rgt.slots target then .refuse s .stale
      else if lockChecked && lockedLive s.rgt.slots target then .refuse s .locked
      else ⟨s.stage target op, .done, [nextIndex s.csu]⟩

/-- AMEND at CSU (R44, R48). -/
def amendRequest (p : List Byte) (s : State) : Answer :=
  stageChange (readHandle p) ((readGroup p).map Operation.amend) true s

/-- AMEND. -/
def execAmend (sdi : SdiBits) (s : State) : Host.Outcome State Fault Refusal :=
  takeRequest .amend sdi amendRequest s.settled

/-- RETIRE at CSU (R44, R48). -/
def retireRequest (p : List Byte) (s : State) : Answer := stageChange (readHandle p) (some .retire) true s

/-- RETIRE. -/
def execRetire (sdi : SdiBits) (s : State) : Host.Outcome State Fault Refusal :=
  takeRequest .retire sdi retireRequest s.settled

/-- RESTACK at CSU (R32, R44, R48). -/
def restackRequest (p : List Byte) (s : State) : Answer :=
  stageChange (readHandle p) ((readPosition p).map Operation.restack) true s

/-- RESTACK. -/
def execRestack (sdi : SdiBits) (s : State) : Host.Outcome State Fault Refusal :=
  takeRequest .restack sdi restackRequest s.settled

/-- LOCK at CSU (R44, R46, R76): a LOCK of a locked region is taken. -/
def lockRequest (p : List Byte) (s : State) : Answer := stageChange (readHandle p) (some .lock) false s

/-- LOCK. -/
def execLock (sdi : SdiBits) (s : State) : Host.Outcome State Fault Refusal :=
  takeRequest .lock sdi lockRequest s.settled

end Sys2Proof.Machine
end

