-- ==== Sys2Proof/Machine/Status.lean ====
section
/-! DEFINITION. The requests that HP owns (sections 10.7 to 10.9): READ STATUS, SET NOTE MASK and SOFT RESET. -/

namespace Sys2Proof.Machine
open Sys2Proof

/-- READ STATUS at HP (R177): the status gathered, then the six fault flags cleared and the last cancel cause none. -/
def readStatusRequest (_p : List Byte) (s : State) : Answer :=
  ⟨(s.setHp s.hp.clearFaults).setPu { s.pu.clearFaults with lastCause := none }, .done, statusBytes s⟩

/-- READ_STATUS. -/
def execReadStatus (sdi : SdiBits) (s : State) : Host.Outcome State Fault Refusal :=
  takeRequest .readStatus sdi readStatusRequest s.settled

/-- SET NOTE MASK at HP (R179). -/
def setNoteMaskRequest (p : List Byte) (s : State) : Answer :=
  match readNoteMask p with
  | none => .refuse s .range
  | some m => ⟨s.setHp { s.hp with mask := m }, .done, []⟩

/-- SET_NOTE_MASK. -/
def execSetNoteMask (sdi : SdiBits) (s : State) : Host.Outcome State Fault Refusal :=
  takeRequest .setNoteMask sdi setNoteMaskRequest s.settled

/-- SOFT RESET at HP (R180): it replies DONE, and its reset does not act at the taking; `takeRequest` marks the reply, and the
reset acts when the reply ends. -/
def softResetRequest (_p : List Byte) (s : State) : Answer := ⟨s, .done, []⟩

/-- SOFT_RESET. -/
def execSoftReset (sdi : SdiBits) (s : State) : Host.Outcome State Fault Refusal :=
  takeRequest .softReset sdi softResetRequest s.settled

end Sys2Proof.Machine
end

