-- ==== Sys2Proof/Machine/Dispatch.lean ====
section
/-! DEFINITION. One arm per command, each one direct call of its meaning. -/

namespace Sys2Proof.Machine
open Sys2Proof

def exec (i : Instr) (s : State) : Host.Outcome State Fault Refusal :=
  match i with
  | .powerOn select guard fallback => Sys2Proof.Machine.execPowerOn select guard fallback s
  | .resetAssert => Sys2Proof.Machine.execResetAssert s
  | .resetRelease => Sys2Proof.Machine.execResetRelease s
  | .guardLineChange level => Sys2Proof.Machine.execGuardLineChange level s
  | .fallbackLineChange level => Sys2Proof.Machine.execFallbackLineChange level s
  | .selectFall => Sys2Proof.Machine.execSelectFall s
  | .selectRise => Sys2Proof.Machine.execSelectRise s
  | .replyComplete => Sys2Proof.Machine.execReplyComplete s
  | .framingFault sdi => Sys2Proof.Machine.execFramingFault sdi s
  | .create sdi => Sys2Proof.Machine.execCreate sdi s
  | .amend sdi => Sys2Proof.Machine.execAmend sdi s
  | .retire sdi => Sys2Proof.Machine.execRetire sdi s
  | .restack sdi => Sys2Proof.Machine.execRestack sdi s
  | .lock sdi => Sys2Proof.Machine.execLock sdi s
  | .publish sdi => Sys2Proof.Machine.execPublish sdi s
  | .withdraw sdi => Sys2Proof.Machine.execWithdraw sdi s
  | .discard sdi => Sys2Proof.Machine.execDiscard sdi s
  | .readOutcome sdi => Sys2Proof.Machine.execReadOutcome sdi s
  | .readRegion sdi => Sys2Proof.Machine.execReadRegion sdi s
  | .readStack sdi => Sys2Proof.Machine.execReadStack sdi s
  | .guardOn sdi => Sys2Proof.Machine.execGuardOn sdi s
  | .guardOff sdi => Sys2Proof.Machine.execGuardOff sdi s
  | .setTiming sdi => Sys2Proof.Machine.execSetTiming sdi s
  | .readTiming sdi => Sys2Proof.Machine.execReadTiming sdi s
  | .startScan sdi => Sys2Proof.Machine.execStartScan sdi s
  | .stopScan sdi => Sys2Proof.Machine.execStopScan sdi s
  | .pointerSettings sdi => Sys2Proof.Machine.execPointerSettings sdi s
  | .readTouch sdi => Sys2Proof.Machine.execReadTouch sdi s
  | .probe sdi => Sys2Proof.Machine.execProbe sdi s
  | .readStatus sdi => Sys2Proof.Machine.execReadStatus sdi s
  | .setNoteMask sdi => Sys2Proof.Machine.execSetNoteMask sdi s
  | .softReset sdi => Sys2Proof.Machine.execSoftReset sdi s
  | .softResetAction => Sys2Proof.Machine.execSoftResetAction s
  | .frameStart order => Sys2Proof.Machine.execFrameStart order s
  | .pointerTick => Sys2Proof.Machine.execPointerTick s
  | .contactTimeout => Sys2Proof.Machine.execContactTimeout s
  | .lineStart => Sys2Proof.Machine.execLineStart s
  | .cellIssue data groups => Sys2Proof.Machine.execCellIssue data groups s
  | .lineEnd => Sys2Proof.Machine.execLineEnd s
  | .retraceLine => Sys2Proof.Machine.execRetraceLine s
  | .stopPoint => Sys2Proof.Machine.execStopPoint s
  | .pointerLinkFault line => Sys2Proof.Machine.execPointerLinkFault line s
  | .reportDiscarded line => Sys2Proof.Machine.execReportDiscarded line s
  | .contact line => Sys2Proof.Machine.execContact line s
  | .lift line => Sys2Proof.Machine.execLift line s
  | .pointerCharacterKept line => Sys2Proof.Machine.execPointerCharacterKept line s
  | .requestByteReceived sdi => Sys2Proof.Machine.execRequestByteReceived sdi s
  | .replyByteShifted => Sys2Proof.Machine.execReplyByteShifted s

end Sys2Proof.Machine
end

