-- ==== Sys2Proof/Safety.lean ====
section
/-! DEFINITION. What holds of the part between two events: the laws that the chapters state of the whole state (`State.Inv`, clause
by clause), and the words in which the statements speak of a request that is presented and of its answer. -/

namespace Sys2Proof

/-- The command is POWER_ON, the one event that no due soft reset precedes. -/
def Instr.isPowerOn (c : Instr) : Prop := ∃ select guard fallback, c = .powerOn select guard fallback

/-- The command brings an apply point, when a set is published by it or pending (R51, R53). -/
def Instr.isApplyPoint (c : Instr) : Prop := (∃ sdi, c = .publish sdi) ∨ (∃ order, c = .frameStart order) ∨ c = .stopPoint

/-- The command ends reservations without a commit (R49), besides an apply point and a soft reset. -/
def Instr.emptiesList (c : Instr) : Prop := (∃ sdi, c = .discard sdi) ∨ (∃ sdi, c = .withdraw sdi) ∨ c = .resetAssert

end Sys2Proof

namespace Sys2Proof.Machine
open Sys2Proof

/-! ### The laws of the state -/

/-- R27, R28: the stacking order holds the handle of every LIVE region exactly once and no other handle, and every TELLTALE
region stands ahead of every ORDINARY region. -/
def StackMatches (t : SlotTable) (stack : List Handle) : Prop :=
  stack.Nodup
    ∧ (∀ h ∈ stack, isLive t h = true)
    ∧ (∀ i : Fin 32, (slotAt t i).state = .live → handleOf t i ∈ stack)
    ∧ stack.Pairwise fun a b => classOf t a = .telltale ∨ classOf t b = .ordinary

/-- R1, R3, R15: a FREE slot holds the cleared record and no touch part; a RESERVED slot is not locked and has no touch part; a
LIVE slot has a touch part exactly when its touch mode is ACCEPT. -/
def SlotLaw (x : Slot) : Prop :=
  (x.state = .free → x = Slot.cleared x.gen)
    ∧ (x.state = .reserved → x.touch = none ∧ x.record.locked = false)
    ∧ (x.state = .live → (x.touch.isSome = true ↔ x.record.touchMode = .accept))

/-- The record is a CREATE. -/
def Change.isCreate (c : Change) : Bool :=
  match c.op with
  | .create _ => true
  | _ => false

/-- What a staged record says of the applied table and the reservations in force: a CREATE's slot is RESERVED at the handle's
generation with the descriptor as its record (R3, R41); any other target is current (R45). -/
def Change.fitsTable (t : SlotTable) (c : Change) : Prop :=
  match c.op with
  | .create d => slotAt t c.target.slot = ⟨.reserved, c.target.gen, d, none⟩
  | _ => isCurrent t c.target = true

/-- R1, R40, R41, R45, R52: the staging list holds at most 16 records, each with its position as its index; a slot is RESERVED
exactly when it is the target of a CREATE record of the list; every record fits the table, and a CREATE stands ahead of every
other record that names its slot; a set is PENDING only while the scan is not STOPPED. -/
def StagingLaw (s : State) : Prop :=
  s.csu.changes.length ≤ 16
    ∧ s.csu.changes.map Change.index = List.range s.csu.changes.length
    ∧ (∀ i : Fin 32, (slotAt s.rgt.slots i).state = .reserved ↔ ∃ c ∈ s.csu.changes, c.createsSlot i = true)
    ∧ (∀ c ∈ s.csu.changes, c.fitsTable s.rgt.slots)
    ∧ (s.csu.changes.Pairwise fun a b => b.isCreate = true → a.target.slot ≠ b.target.slot)
    ∧ (s.csu.setState = .pending → s.se.scan ≠ .stopped)

/-- R140, R142, R146, R151: a captured region is LIVE, visible, with touch mode ACCEPT and PRESSED or PRESSED_AWAY; every other
touch part is IDLE; no activation count exceeds 15; the silence count is 0 while UP and never exceeds 15; the timeout is 1 to
15. -/
def TouchLaw (s : State) : Prop :=
  (∀ h : Handle, s.pu.contact = .captured h →
      isLive s.rgt.slots h = true ∧ isVisible s.rgt.slots h = true
        ∧ (slotAt s.rgt.slots h.slot).record.touchMode = .accept
        ∧ ∃ q, (slotAt s.rgt.slots h.slot).touch = some q ∧ q.state ≠ .idle)
    ∧ (∀ i : Fin 32, ∀ q, (slotAt s.rgt.slots i).touch = some q →
        q.activations ≤ 15 ∧ (q.state ≠ .idle → s.pu.contact = .captured (handleOf s.rgt.slots i)))
    ∧ (s.pu.contact = .up → s.pu.silence = 0)
    ∧ s.pu.silence < 15 ∧ 1 ≤ s.pu.timeout ∧ s.pu.timeout ≤ 15
    ∧ (s.pu.enable = false → s.pu.contact = .up)

/-- R10, R17, R80: every LIVE region meets the record conditions in the displayed area, and a valid timing set lies in its ranges. -/
def AreaLaw (s : State) : Prop :=
  (∀ i : Fin 32, (slotAt s.rgt.slots i).state = .live → recordFits s.se.area (slotAt s.rgt.slots i).record = true)
    ∧ (s.se.timingValid = true → s.se.timing.fieldsInRange = true ∧ s.se.timing.fieldsRelate = true)

/-- The place a stop point waits for can still come (R87, R91). -/
def StopPlace.ahead : StopPlace → ScanPlace → Prop
  | .lastLineEnd, .before _ => True
  | .lastLineEnd, .inLine _ => True
  | .lastLineEnd, .retrace k => k = 0
  | .lastLineEnd, .outside => False
  | .nextFrameStart, .outside => True
  | .nextFrameStart, .retrace _ => True
  | .nextFrameStart, .before _ => False
  | .nextFrameStart, .inLine _ => False

/-- The scan stands inside its frame (R88): a displayed line's number is below the displayed lines, and no more retrace lines have
passed than the frame has. -/
def ScanPlace.within (t : Timing) : ScanPlace → Prop
  | .outside => True
  | .before y => y < t.displayedLines
  | .inLine y => y < t.displayedLines
  | .retrace k => k ≤ t.retraceLines

/-- R82, R85, R87, R88, R92, R158: while STOPPED there is no place in a frame, no stop point and no tick; a scan needs a valid timing
set; only a STOPPING scan has a stop point, and it lies ahead; a tick is owed only before the first line of a frame; the
fallback-effective flag was set by a frame start, and so under a valid timing set. -/
def ScanLaw (e : Se) : Prop :=
  (e.scan = .stopped → e.place = .outside ∧ e.stop = none ∧ e.tickOwed = false)
    ∧ (e.scan = .running → e.stop = none)
    ∧ (e.scan = .stopping → ∃ p, e.stop = some p ∧ p.ahead e.place)
    ∧ (e.scan ≠ .stopped → e.timingValid = true)
    ∧ e.place.within e.timing
    ∧ (e.tickOwed = true → e.place = .before 0)
    ∧ (e.fallbackEffective = true → e.timingValid = true)

/-- R99, R102, R116, R119, R133: during a displayed line LC holds the span list of that line as the table and the flag give it now,
and a cell that COU holds is the one issued last, with groups still to be shifted; outside a displayed line LC and COU hold
nothing. -/
def LineLaw (s : State) : Prop :=
  (∀ y, s.se.place = .inLine y →
      s.lc.spans = spanList s y ∧ s.lc.column ≤ s.se.timing.displayedColumns
        ∧ ∀ x, s.cou.cell = some x →
          s.cou.shifted < (s.cellGroups x).length
            ∧ ∃ c pdata adata, s.lc.column = c + 1 ∧ x = cellOf s (ownerOf s (effectiveOrder s) c y) c y pdata adata)
    ∧ ((∀ y, s.se.place ≠ .inLine y) → s.lc = ⟨[], 0⟩ ∧ s.cou = ⟨none, 0⟩)
    ∧ (s.cou.cell = none → s.cou.shifted = 0)

/-- What HP holds of a request is what its bytes so far make of it (R167, R168). -/
def FrameLaw (f : Frame) : Prop :=
  match f.kind, f.length with
  | none, none => f.params = [] ∧ f.crc = 0
  | none, some _ => False
  | some k, none => f.params = [] ∧ f.crc = crc8 [k]
  | some k, some n => f.params.length ≤ n.toNat ∧ f.crc = crc8 (k :: n :: f.params)

/-- R165, R167, R171, R180, R183: IDLE exactly while SELECT is high and RESET released; HELD while RESET is asserted; a request's record
is lawful; a reply being shifted has its check byte still to come; no transaction runs when a soft reset is due; a byte in progress has
fewer than eight bits, and none is in progress while SELECT is high or RESET asserted. -/
def PortLaw (p : Hp) : Prop :=
  (p.trans = .idle ↔ p.select = .released ∧ p.resetLine = .released)
    ∧ (p.resetLine = .asserted → p.trans = .held)
    ∧ (∀ f, p.trans = .receiving f → FrameLaw f)
    ∧ (∀ reply sent soft, p.trans = .replying reply sent soft → sent < reply.length)
    ∧ (p.softResetDue = true → p.trans = .idle ∨ p.trans = .draining ∨ p.trans = .held)
    ∧ p.bits.length < 8
    ∧ (p.select = .released ∨ p.resetLine = .asserted → p.bits = [])

/-- R165, R167, R171: SDO is driven exactly while SELECT is low, and in a byte in progress it has carried as many bits of the byte that is
its to carry, most significant first, as HP has sampled on SDI. -/
def SdoLaw (s : State) : Prop :=
  (s.pins.sdo = none ↔ s.hp.select = .released)
    ∧ (s.hp.bits ≠ [] → s.pins.sdo = some ((byteBits s.hp.trans.outByte).take s.hp.bits.length))

/-- The receiver holds 1 to 4 bytes while COLLECTING (R135). -/
def ReceiverLaw : Receiver → Prop
  | .waiting => True
  | .collecting bytes => 1 ≤ bytes.length ∧ bytes.length ≤ 4

/-- A rectangle in the ranges of R6 that fits the largest panel (R10). -/
def Rect.inRange (r : Rect) : Prop :=
  r.left ≤ 199 ∧ r.top ≤ 799 ∧ 1 ≤ r.width ∧ r.width ≤ 200 ∧ 1 ≤ r.height ∧ r.height ≤ 800
    ∧ r.left + r.width ≤ 200 ∧ r.top + r.height ≤ 800

/-- Source fields in the ranges of R6: a TEXT source's scroll offset is below its cell height, and a BITMAP source holds a cell
height of 1 and a scroll offset of 0 (R11, R12). -/
def Source.inRange (s : Source) : Prop :=
  1 ≤ s.stride ∧ s.stride ≤ 4095
    ∧ (s.kind = .text → 1 ≤ s.cellHeight ∧ s.cellHeight ≤ 32 ∧ s.scroll < s.cellHeight)
    ∧ (s.kind = .bitmap → s.cellHeight = 1 ∧ s.scroll = 0)

/-- A cursor part, if present, has its rasters in order and below 32 (R14). -/
def cursorInRange (c : Option CursorPart) : Prop := ∀ x, c = some x → x.firstRaster ≤ x.lastRaster ∧ x.lastRaster ≤ 31

/-- A record as R6, R10, R12 and R14 allow it. -/
def RegionRecord.inRange (r : RegionRecord) : Prop :=
  r.rect.inRange ∧ r.source.inRange ∧ cursorInRange r.cursor ∧ r.rect.width ≤ r.source.stride
    ∧ (r.source.kind = .bitmap → r.cursor = none)

/-- The payload of a staged AMEND as R18 allows it. -/
def Group.inRange : Group → Prop
  | .geometry r => r.inRange
  | .source s => s.inRange
  | .scroll _ offset => offset ≤ 31
  | .look _ => True
  | .cursor c => cursorInRange c
  | .touch _ => True

/-- A point in the ranges of R142. -/
def Point.inRange (p : Point) : Prop := p.x ≤ 199 ∧ p.y ≤ 799

/-- R6, R18, R142: the fields of every RESERVED and LIVE record, of every staged AMEND and of every touch part lie in their
ranges. -/
def RangeLaw (s : State) : Prop :=
  (∀ i : Fin 32, (slotAt s.rgt.slots i).state ≠ .free → (slotAt s.rgt.slots i).record.inRange)
    ∧ (∀ c ∈ s.csu.changes, ∀ g, c.op = .amend g → g.inRange)
    ∧ (∀ i : Fin 32, ∀ q, (slotAt s.rgt.slots i).touch = some q → q.press.inRange ∧ q.last.inRange)

/-- The laws of the state that every event keeps. -/
structure State.Inv (s : State) : Prop where
  stack : StackMatches s.rgt.slots s.rgt.stack
  slots : ∀ i : Fin 32, SlotLaw (slotAt s.rgt.slots i)
  staging : StagingLaw s
  touch : TouchLaw s
  area : AreaLaw s
  ranges : RangeLaw s
  scan : ScanLaw s.se
  line : LineLaw s
  port : PortLaw s.hp
  sdo : SdoLaw s
  receiver : ReceiverLaw s.pu.receiver
  note : s.pins.note = noteLevel s

/-! ### Words of the statements -/

/-- The row of a request, with levels of SDI. -/
def RequestKind.row (k : RequestKind) (sdi : SdiBits) : Instr :=
  match k with
  | .create => .create sdi
  | .amend => .amend sdi
  | .retire => .retire sdi
  | .restack => .restack sdi
  | .lock => .lock sdi
  | .publish => .publish sdi
  | .withdraw => .withdraw sdi
  | .discard => .discard sdi
  | .readOutcome => .readOutcome sdi
  | .readRegion => .readRegion sdi
  | .readStack => .readStack sdi
  | .guardOn => .guardOn sdi
  | .guardOff => .guardOff sdi
  | .setTiming => .setTiming sdi
  | .readTiming => .readTiming sdi
  | .startScan => .startScan sdi
  | .stopScan => .stopScan sdi
  | .pointerSettings => .pointerSettings sdi
  | .readTouch => .readTouch sdi
  | .probe => .probe sdi
  | .readStatus => .readStatus sdi
  | .setNoteMask => .setNoteMask sdi
  | .softReset => .softReset sdi

/-- The command clocks the host port with these levels of SDI: a row in which a byte comes in, with its levels, or a row of a reply, with
what is left of the byte in progress. -/
def clocksPort (c : Instr) (sdi : SdiBits) (s : State) : Prop :=
  c = .requestByteReceived sdi ∨ c = .framingFault sdi ∨ (∃ k : RequestKind, c = k.row sdi)
    ∨ ((c = .replyByteShifted ∨ c = .replyComplete) ∧ sdi = s.restOfByte)

/-- These levels of SDI complete a byte, with the bits that HP holds of it, while SELECT is low and RESET is released (R165): the bits
are the byte's, most significant first. -/
def Clocked (b : Byte) (sdi : SdiBits) (s : State) : Prop :=
  s.hp.select = .asserted ∧ s.hp.resetLine = .released ∧ s.hp.bits ++ sdi = byteBits b

/-- The length of a DONE reply (R185). -/
def RequestKind.doneLength (k : RequestKind) (s : State) (p : List Byte) : Nat :=
  match k with
  | .create => 2 | .amend => 1 | .retire => 1 | .restack => 1 | .lock => 1
  | .publish => 2 | .withdraw => 0 | .discard => 0 | .readOutcome => 5
  | .readRegion => 24 | .readStack => 2 + s.rgt.stack.length
  | .guardOn => 0 | .guardOff => 0
  | .setTiming => 0 | .readTiming => 13 | .startScan => 0 | .stopScan => 0
  | .pointerSettings => 0 | .readTouch => 10
  | .probe => 3 + 2 * ((effectiveOrder s).filter fun e => e.contains s (readPoint p).x (readPoint p).y).length
  | .readStatus => 13 | .setNoteMask => 0 | .softReset => 0

/-- A request is presented to its owner: no soft reset is due, HP is in RECEIVING with the whole frame of this kind and these
parameters, and the levels of SDI complete its check byte, which is good (R165, R169, R170). -/
def Presented (k : RequestKind) (p : List Byte) (sdi : SdiBits) (s : State) : Prop :=
  s.hp.softResetDue = false
    ∧ p.length = k.paramLength
    ∧ ∃ crc check, s.hp.trans = .receiving ⟨some k.code, some (BitVec.ofNat 8 p.length), p, crc⟩
      ∧ Clocked check sdi s ∧ crcByte crc check = 0

/-- The state with an answer in the reply: REPLYING with the reply's bytes (R166, R167), SDO having carried 0x00, and NOTE judged
from the state the owner left (R178). -/
def State.answered (s : State) (code : ReplyCode) (bytes : List Byte) : State :=
  (s.replyWith code bytes false).judgeNote

/-- The state after a refusal with a code: nothing but the reply differs (R170, R175). -/
def State.refusedWith (s : State) (code : ReplyCode) : State := s.answered code []

end Sys2Proof.Machine
end

