-- ==== Sys2Proof/Certificates/Slice0/Obligations.lean ====
section
/-! DEFINITION. The statements for the provers. A statement whose conclusion is `exec … = .next t` gives the whole next state, so it
states the command's frame as well: every field of `t` that is not named is `s`'s. `t.judgeNote` differs from `t` in the NOTE pin
alone, which `NoteFollowsItsCauses` gives. -/

section Obligations
open Sys2Proof Sys2Proof.Machine

/-! ### The queue -/

/-- Log entry 1 (a DESIGN CHOICE of the model): a step takes the command at the front of the queue, with the queue's rest; on an
empty queue the part idles. -/
def Obligations.StepTakesFrontCommand : Prop :=
  (∀ (c : Instr) (rest : List Instr) (s : State), s.pending = c :: rest → step s = exec c (s.setPending rest))
    ∧ ∀ s : State, s.pending = [] → step s = .next s

/-- No command reads or changes the queue of the commands that wait (log entry 1). -/
def Obligations.CommandsIgnoreTheQueue : Prop :=
  ∀ (c : Instr) (s t : State) (q : List Instr), exec c s = .next t →
    t.pending = s.pending ∧ exec c (s.setPending q) = .next (t.setPending q)

/-- R180: a soft reset whose reply has ended acts before any other event but POWER_ON (log entry 8). -/
def Obligations.DueSoftResetActsFirst : Prop :=
  ∀ (c : Instr) (s : State), s.hp.softResetDue = true → ¬c.isPowerOn →
    exec c s = exec c (softResetEffect s) ∧ (softResetEffect s).hp.softResetDue = false

/-! ### The laws of the state -/

/-- The laws of the state hold right after power-on, whatever the levels of the lines (log entry 9 names those of `State.reset`). -/
def Obligations.LawsHoldAfterPowerOn : Prop :=
  State.reset.Inv ∧ ∀ (select guard fallback : LineLevel) (s t : State),
    exec (.powerOn select guard fallback) s = .next t → t.Inv

/-- R27, R28: the stacking order is the LIVE regions' handles, once each, telltales ahead of ordinary regions. -/
def Obligations.StepKeepsStackingLaw : Prop :=
  ∀ s t : State, s.Inv → step s = .next t → StackMatches t.rgt.slots t.rgt.stack

/-- R1, R3, R15: what a FREE, a RESERVED and a LIVE slot hold. -/
def Obligations.StepKeepsSlotLaw : Prop :=
  ∀ s t : State, s.Inv → step s = .next t → ∀ i : Fin 32, SlotLaw (slotAt t.rgt.slots i)

/-- R1, R40, R41, R45, R52: the staging list and the reservations. -/
def Obligations.StepKeepsStagingLaw : Prop := ∀ s t : State, s.Inv → step s = .next t → StagingLaw t

/-- R138, R140, R142, R146: the contact, the capture and the touch parts. -/
def Obligations.StepKeepsTouchLaw : Prop := ∀ s t : State, s.Inv → step s = .next t → TouchLaw t

/-- R6, R10, R12, R14, R17, R18, R83, R142: every LIVE region meets the record conditions in the displayed area; records, staged
payloads and touch points keep their ranges. -/
def Obligations.StepKeepsAreaAndRangeLaws : Prop :=
  ∀ s t : State, s.Inv → step s = .next t → AreaLaw t ∧ RangeLaw t

/-- R82, R85, R87, R88, R92: the scan state, the place in the frame and the stop point agree. -/
def Obligations.StepKeepsScanLaw : Prop := ∀ s t : State, s.Inv → step s = .next t → ScanLaw t.se

/-- R99, R102, R116, R119, R133: during a displayed line LC holds that line's span list, as the table and the flag give it at every
later moment of the line (log entry 14); a cell that COU holds is the one issued last,
with groups still to be shifted; outside a displayed line LC and COU hold nothing. -/
def Obligations.StepKeepsLineLaw : Prop := ∀ s t : State, s.Inv → step s = .next t → LineLaw t

/-- R135, R165, R167, R168, R183: the host port's transaction with its bits, SDO, and the pointer receiver. The model's choices in these
laws: that no bits are held while RESET is asserted (log entry 18), that SDO is told as the levels at the rising edges of SCLK and that
HELD stays while RESET is held (log entry 17), and that a due soft reset finds no transaction running (log entry 8). -/
def Obligations.StepKeepsPortAndReceiverLaws : Prop :=
  ∀ s t : State, s.Inv → step s = .next t → PortLaw t.hp ∧ SdoLaw t ∧ ReceiverLaw t.pu.receiver

/-- R178: after every command NOTE is asserted exactly while a cause holds with its enable on. -/
def Obligations.NoteFollowsItsCauses : Prop :=
  ∀ (c : Instr) (s t : State), exec c s = .next t →
    (t.pins.note = true ↔
      (t.hp.mask.news = true ∧ ∃ (i : Fin 32) (q : TouchPart), (slotAt t.rgt.slots i).touch = some q
          ∧ (q.news.press = true ∨ q.news.release = true ∨ q.news.releaseAway = true ∨ q.news.cancel = true))
        ∨ (t.hp.mask.outcome = true ∧ t.csu.unread = true)
        ∨ (t.hp.mask.fault = true ∧ (t.hp.cutFault = true ∨ t.hp.checkFault = true ∨ t.hp.lengthFault = true
            ∨ t.hp.unknownFault = true ∨ t.pu.linkFault = true ∨ t.pu.rangeFault = true)))

/-! ### Laws over all commands -/

/-- R75: a locked region stays LIVE, at its generation and with its record, through every event but power-on; power-on leaves no
slot locked. -/
def Obligations.LockedRegionIsHeld : Prop :=
  (∀ (c : Instr) (s t : State) (i : Fin 32), s.Inv → ¬c.isPowerOn → exec c s = .next t →
    (slotAt s.rgt.slots i).state = .live → (slotAt s.rgt.slots i).record.locked = true →
      (slotAt t.rgt.slots i).state = .live ∧ (slotAt t.rgt.slots i).gen = (slotAt s.rgt.slots i).gen
        ∧ (slotAt t.rgt.slots i).record = (slotAt s.rgt.slots i).record)
    ∧ ∀ (c : Instr) (s t : State) (i : Fin 32), c.isPowerOn → exec c s = .next t →
        (slotAt t.rgt.slots i).record.locked = false

/-- R73: while the guard is in force, every event but power-on leaves each LIVE TELLTALE region LIVE at its generation, with its
record but for a lock that may be set, and leaves the existing telltales in their order among themselves. -/
def Obligations.GuardedTelltalesAreHeld : Prop :=
  ∀ (c : Instr) (s t : State), s.Inv → ¬c.isPowerOn → s.rgt.guardInForce = true → exec c s = .next t →
    (∀ i : Fin 32, (slotAt s.rgt.slots i).state = .live → (slotAt s.rgt.slots i).record.cls = .telltale →
      (slotAt t.rgt.slots i).state = .live ∧ (slotAt t.rgt.slots i).gen = (slotAt s.rgt.slots i).gen
        ∧ { (slotAt t.rgt.slots i).record with locked := (slotAt s.rgt.slots i).record.locked }
          = (slotAt s.rgt.slots i).record
        ∧ ((slotAt s.rgt.slots i).record.locked = true → (slotAt t.rgt.slots i).record.locked = true))
    ∧ t.rgt.stack.filter (fun h => (s.rgt.stack.filter fun g => classOf s.rgt.slots g == .telltale).contains h)
      = s.rgt.stack.filter fun g => classOf s.rgt.slots g == .telltale

/-- R2, R4, R7: a slot changes state only as R2's table lists, at the events it lists; every return to FREE advances the generation by
one and clears the record, every other change keeps the generation, and a region keeps its class. Power-on apart (R24). -/
def Obligations.SlotsChangeStateOnlyAsListed : Prop :=
  ∀ (c : Instr) (s t : State) (i : Fin 32), s.Inv → ¬c.isPowerOn → exec c s = .next t →
    let a := slotAt s.rgt.slots i
    let b := slotAt t.rgt.slots i
    (b.state = a.state ∧ b.gen = a.gen ∧ b.record.cls = a.record.cls)
      ∨ (a.state = .free ∧ b.state = .reserved ∧ b.gen = a.gen ∧ ∃ sdi, c = .create sdi)
      ∨ (a.state = .reserved ∧ b.state = .live ∧ b.gen = a.gen ∧ b.record.cls = a.record.cls ∧ c.isApplyPoint)
      ∨ (a.state = .reserved ∧ b = Slot.cleared (a.gen + 1)
          ∧ (c.isApplyPoint ∨ c.emptiesList ∨ s.hp.softResetDue = true))
      ∨ (a.state = .live ∧ b = Slot.cleared (a.gen + 1) ∧ (c.isApplyPoint ∨ s.hp.softResetDue = true))

/-- R2, R27: at an event that is no apply point, no soft reset and no power-on, the stacking order stays and every LIVE slot keeps its
state, its generation and its record; but for CREATE's reservation and the release of reservations by DISCARD, WITHDRAW and the RESET
line, so does every slot. -/
def Obligations.TableChangesOnlyAtCommitsAndResets : Prop :=
  ∀ (c : Instr) (s t : State), ¬c.isPowerOn → ¬c.isApplyPoint → s.hp.softResetDue = false → exec c s = .next t →
    t.rgt.stack = s.rgt.stack
      ∧ ∀ i : Fin 32,
          ((slotAt s.rgt.slots i).state = .live ∨ ((∀ sdi, c ≠ .create sdi) ∧ ¬c.emptiesList)) →
            (slotAt t.rgt.slots i).state = (slotAt s.rgt.slots i).state
              ∧ (slotAt t.rgt.slots i).gen = (slotAt s.rgt.slots i).gen
              ∧ (slotAt t.rgt.slots i).record = (slotAt s.rgt.slots i).record

/-- R43, R62, R63: the sequence number advances by one at a PUBLISH that is taken and at no other event but power-on; whenever the
outcome record changes, outcome-unread is set, and outcome-unread is cleared by READ OUTCOME and power-on alone. -/
def Obligations.SequenceNumberAndOutcomeWrites : Prop :=
  ∀ (c : Instr) (s t : State), PortLaw s.hp → exec c s = .next t →
    (c.isPowerOn → t.csu.seq = 0 ∧ t.csu.outcome = ⟨0, .none, 0⟩ ∧ t.csu.unread = false)
      ∧ (¬c.isPowerOn →
        (t.csu.seq = s.csu.seq ∨ ((∃ sdi, c = .publish sdi) ∧ t.csu.seq = s.csu.seq + 1))
          ∧ (t.csu.outcome ≠ s.csu.outcome → t.csu.unread = true)
          ∧ (s.csu.unread = true → t.csu.unread = false → ∃ sdi, c = .readOutcome sdi))

/-- R94, R95, R158: the frame counter's table; and the fallback-effective flag takes the recorded FALLBACK level at a frame start, is
cleared by the resets, and is left by every other event. The status reports the counter as it stands. A soft reset that is due acts
first (log entry 8), and a frame start while STOPPED changes nothing (log entry 3). -/
def Obligations.FrameCounterAndFallbackFlagTables : Prop :=
  ∀ (c : Instr) (s t : State), exec c s = .next t →
    (c.isPowerOn → t.se.frame = 0)
      ∧ (c = .resetAssert → t.se.frame = 0)
      ∧ (¬c.isPowerOn → s.hp.softResetDue = true → t.se.frame = 0)
      ∧ (s.hp.softResetDue = false → ∀ sdi p, c = .startScan sdi → Presented .startScan p sdi s →
          t.se.frame = if s.se.scan = .stopped ∧ s.se.timingValid = true then 0 else s.se.frame)
      ∧ (s.hp.softResetDue = false → ∀ sdi, c = .startScan sdi → t.se.frame = s.se.frame ∨ t.se.frame = 0)
      ∧ (s.hp.softResetDue = false → ∀ order, c = .frameStart order → s.se.scan = .running →
          t.se.frame = if s.se.place = .outside then s.se.frame else s.se.frame + 1)
      ∧ (s.hp.softResetDue = false → c = .stopPoint → t.se.frame = s.se.frame)
      ∧ (s.hp.softResetDue = false → ¬c.isPowerOn → c ≠ .resetAssert → (∀ sdi, c ≠ .startScan sdi) →
          ((∀ order, c ≠ .frameStart order) ∨ s.se.scan = .stopped) → t.se.frame = s.se.frame)
      ∧ (c.isPowerOn ∨ c = .resetAssert ∨ s.hp.softResetDue = true → t.se.fallbackEffective = false)
      ∧ (s.hp.softResetDue = false → ∀ order, c = .frameStart order → s.se.scan = .running →
          t.se.fallbackEffective = decide (s.se.fallbackLine = .asserted))
      ∧ (s.hp.softResetDue = false → ¬c.isPowerOn → c ≠ .resetAssert →
          ((∀ order, c ≠ .frameStart order) ∨ s.se.scan = .stopped) → t.se.fallbackEffective = s.se.fallbackEffective)
      ∧ (statusBytes s)[2]? = some (s.se.frame.setWidth 8)

/-- R67, R68, R82, R95, R138, R179: each setting and each line record is changed by its own request or line event, and by power-on,
alone; so the resets keep them. -/
def Obligations.SettingsChangeOnlyByTheirEvents : Prop :=
  ∀ (c : Instr) (s t : State), ¬c.isPowerOn → exec c s = .next t →
    ((∀ sdi, c ≠ .guardOn sdi) → (∀ sdi, c ≠ .guardOff sdi) → t.rgt.guardEnable = s.rgt.guardEnable)
      ∧ ((∀ level, c ≠ .guardLineChange level) → t.rgt.guardLine = s.rgt.guardLine)
      ∧ ((∀ level, c ≠ .fallbackLineChange level) → t.se.fallbackLine = s.se.fallbackLine)
      ∧ ((∀ sdi, c ≠ .setTiming sdi) → t.se.timing = s.se.timing ∧ t.se.timingValid = s.se.timingValid)
      ∧ ((∀ sdi, c ≠ .pointerSettings sdi) → t.pu.enable = s.pu.enable ∧ t.pu.timeout = s.pu.timeout)
      ∧ ((∀ sdi, c ≠ .setNoteMask sdi) → t.hp.mask = s.hp.mask)
      ∧ (c ≠ .selectFall → c ≠ .selectRise → t.hp.select = s.hp.select)
      ∧ (c ≠ .resetAssert → c ≠ .resetRelease → t.hp.resetLine = s.hp.resetLine)

/-- R139, R176: a fault flag that is set stays set until READ STATUS, the RESET line, a soft reset or power-on. -/
def Obligations.FaultFlagsAreSticky : Prop :=
  ∀ (c : Instr) (s t : State), ¬c.isPowerOn → c ≠ .resetAssert → (∀ sdi, c ≠ .readStatus sdi) →
    s.hp.softResetDue = false → exec c s = .next t →
      (s.hp.cutFault = true → t.hp.cutFault = true) ∧ (s.hp.checkFault = true → t.hp.checkFault = true)
        ∧ (s.hp.lengthFault = true → t.hp.lengthFault = true) ∧ (s.hp.unknownFault = true → t.hp.unknownFault = true)
        ∧ (s.pu.linkFault = true → t.pu.linkFault = true) ∧ (s.pu.rangeFault = true → t.pu.rangeFault = true)

/-! ### Framing and formats -/

/-- R170, R171, R175, R185: every request that is presented is answered in one event, with a code of its owner; a DONE reply has the
length R185 gives, and any other reply has length 0 and leaves everything else as it stood. -/
def Obligations.PresentedRequestIsAnswered : Prop :=
  ∀ (k : RequestKind) (p : List Byte) (sdi : SdiBits) (s : State), Presented k p sdi s →
    ∃ (code : ReplyCode) (bytes : List Byte) (t : State), exec (k.row sdi) s = .next t
      ∧ t.hp.trans = .replying (encodeReply code bytes) 0 (k == .softReset) ∧ t.hp.bits = []
      ∧ t.pins.sdo = some (byteBits 0)
      ∧ code ≠ .check ∧ code ≠ .length ∧ code ≠ .unknown
      ∧ (code = .done → bytes.length = k.doneLength s p)
      ∧ (code ≠ .done → bytes = [] ∧ t = s.refusedWith code)

/-- R169: a check byte is judged in the order CHECK, UNKNOWN, LENGTH, and a request that fails gets that code, sets that flag and has
no other effect; the row of a known kind and FRAMING_FAULT say the same of it. A good frame is not FRAMING_FAULT's, and a frame
of another kind is not the row's (log entry 3). -/
def Obligations.FramingJudgement : Prop :=
  ∀ (f : Frame) (kind length check : Byte) (sdi : SdiBits) (s : State), s.hp.softResetDue = false → Clocked check sdi s →
    s.hp.trans = .receiving f →
    f.kind = some kind → f.length = some length → f.params.length = length.toNat →
      (crcByte f.crc check ≠ 0 →
        exec (.framingFault sdi) s = .next ((s.setHp { s.hp with checkFault := true }).refusedWith .check))
      ∧ (crcByte f.crc check = 0 → (∀ k : RequestKind, k.code ≠ kind) →
        exec (.framingFault sdi) s = .next ((s.setHp { s.hp with unknownFault := true }).refusedWith .unknown))
      ∧ (∀ k : RequestKind, crcByte f.crc check = 0 → k.code = kind → length.toNat ≠ k.paramLength →
        exec (.framingFault sdi) s = .next ((s.setHp { s.hp with lengthFault := true }).refusedWith .length))
      ∧ (∀ k : RequestKind, crcByte f.crc check = 0 → k.code = kind → length.toNat = k.paramLength →
        exec (.framingFault sdi) s = .refused .frameNotFaulty)
      ∧ (∀ k : RequestKind, k.code = kind → (crcByte f.crc check ≠ 0 ∨ length.toNat ≠ k.paramLength) →
        exec (k.row sdi) s = exec (.framingFault sdi) s)
      ∧ (∀ k : RequestKind, k.code ≠ kind → exec (k.row sdi) s = .refused .frameOfOtherKind)

/-- R4, R5, R165, R166, R168, R184, R185: eight bits sampled on SDI make a byte, most significant first, and SDO carries a byte's bits in
that order; the CRC-8 register starts at 0 and takes each byte's bits most significant first; it is shifted left by
one, with 0x07 added when the bit shifted out differs from the message bit. A message followed by a byte leaves 0 exactly when that
byte is the message's CRC-8. A reply is its code, its length, its bytes and the CRC-8 of all of these. The request codes, the
parameter lengths and the reply codes are R185's, and a request code names one request. A handle's byte is the generation times 32 plus
the slot, and every byte names exactly one handle. A handle is current when its slot is RESERVED or LIVE at the handle's generation. -/
def Obligations.CheckBytesHandlesAndCodes : Prop :=
  (∀ (message : List Byte) (check : Byte), crc8 (message ++ [check]) = 0 ↔ check = crc8 message)
    ∧ (∀ (code : ReplyCode) (bytes : List Byte), crc8 (encodeReply code bytes) = 0
        ∧ encodeReply code bytes
          = code.toByte :: BitVec.ofNat 8 bytes.length :: bytes
            ++ [crc8 (code.toByte :: BitVec.ofNat 8 bytes.length :: bytes)])
    ∧ crc8 [] = 0
    ∧ (∀ (message : List Byte) (b : Byte), crc8 (message ++ [b]) = crcByte (crc8 message) b)
    ∧ (∀ reg b : Byte, crcByte reg b =
        crcBit (crcBit (crcBit (crcBit (crcBit (crcBit (crcBit (crcBit reg (b.getLsbD 7)) (b.getLsbD 6)) (b.getLsbD 5))
          (b.getLsbD 4)) (b.getLsbD 3)) (b.getLsbD 2)) (b.getLsbD 1)) (b.getLsbD 0))
    ∧ (∀ b : Byte, byteBits b = [b.getLsbD 7, b.getLsbD 6, b.getLsbD 5, b.getLsbD 4, b.getLsbD 3, b.getLsbD 2, b.getLsbD 1,
        b.getLsbD 0] ∧ readByte (byteBits b) = b)
    ∧ (∀ bits : SdiBits, bits.length = 8 → byteBits (readByte bits) = bits)
    ∧ (∀ (reg : Byte) (bit : Bool), crcBit reg bit = (reg <<< 1) ^^^ (if reg.msb = bit then 0 else 7))
    ∧ (∀ h : Handle, h.toByte.toNat = h.gen.toNat * 32 + h.slot.val ∧ Handle.ofByte h.toByte = h)
    ∧ (∀ b : Byte, (Handle.ofByte b).toByte = b)
    ∧ (∀ (t : SlotTable) (h : Handle), isCurrent t h = true ↔
        ((slotAt t h.slot).state = .reserved ∨ (slotAt t h.slot).state = .live) ∧ (slotAt t h.slot).gen = h.gen)
    ∧ (∀ k : RequestKind, RequestKind.ofCode k.code = some k)
    ∧ (∀ b : Byte, RequestKind.ofCode b = none ↔ ∀ k : RequestKind, k.code ≠ b)
    ∧ RequestKind.ofCode 0x00 = none ∧ RequestKind.ofCode 0xFF = none
    ∧ (∀ k : RequestKind, k.code =
        match k with
        | .create => 0x11 | .amend => 0x12 | .retire => 0x13 | .restack => 0x14 | .lock => 0x15
        | .publish => 0x21 | .withdraw => 0x22 | .discard => 0x23 | .readOutcome => 0x24
        | .readRegion => 0x31 | .readStack => 0x32 | .guardOn => 0x41 | .guardOff => 0x42
        | .setTiming => 0x51 | .readTiming => 0x52 | .startScan => 0x53 | .stopScan => 0x54
        | .pointerSettings => 0x61 | .readTouch => 0x62 | .probe => 0x63
        | .readStatus => 0x71 | .setNoteMask => 0x72 | .softReset => 0x73)
    ∧ (∀ k : RequestKind, k.paramLength =
        match k with
        | .create => 20 | .amend => 10 | .setTiming => 12
        | .restack => 3 | .probe => 3 | .setNoteMask => 3
        | .pointerSettings => 2
        | .retire => 1 | .lock => 1 | .readRegion => 1 | .readTouch => 1
        | .publish => 0 | .withdraw => 0 | .discard => 0 | .readOutcome => 0 | .readStack => 0 | .guardOn => 0
        | .guardOff => 0 | .readTiming => 0 | .startScan => 0 | .stopScan => 0 | .readStatus => 0 | .softReset => 0)
    ∧ ∀ code : ReplyCode, code.toByte =
        match code with
        | .done => 0x40 | .busy => 0x41 | .full => 0x42 | .noSlot => 0x43 | .stale => 0x44 | .range => 0x45
        | .locked => 0x46 | .guarded => 0x47 | .state => 0x48 | .tooLate => 0x49 | .check => 0x4A
        | .length => 0x4B | .unknown => 0x4C

/-- R18, R186, R187: the 20-byte descriptor of a record. A record that is not locked, in its ranges, reads back as itself. A descriptor
is read exactly when its fields, each at its place, are in their ranges; and a record's descriptor has the fields at those places,
with a mode byte and a cursor byte whose unused bits are 0. -/
def Obligations.DescriptorReadsBack : Prop :=
  (∀ r : RegionRecord, r.inRange → r.locked = false →
    (descriptorBytes r).length = 20 ∧ readDescriptor (descriptorBytes r) = some r)
    ∧ (∀ (p : List Byte) (d : RegionRecord),
      let a (i : Nat) : Nat := (byteAt p i).toNat
      let addr (i : Nat) : Addr := BitVec.ofNat 24 (a i * 65536 + a (i + 1) * 256 + a (i + 2))
      readDescriptor p = some d ↔
        d.inRange ∧ d.locked = false
          ∧ d.cls = (if (byteAt p 0).getLsbD 7 = true then .telltale else .ordinary)
          ∧ d.rect = ⟨a 1, a 2 * 256 + a 3, a 4, a 5 * 256 + a 6⟩
          ∧ d.source = (if (byteAt p 0).getLsbD 6 = true then ⟨.bitmap, addr 7, a 10 * 256 + a 11, 1, 0⟩
            else ⟨.text, addr 7, a 10 * 256 + a 11, a 12, a 13⟩)
          ∧ d.look = ⟨(byteAt p 0).getLsbD 5, (byteAt p 0).getLsbD 4, (byteAt p 0).getLsbD 3⟩
          ∧ ((byteAt p 14).getLsbD 7 = false → d.cursor = none)
          ∧ ((byteAt p 14).getLsbD 7 = true →
            ∃ m : BlinkMode, (a 14 % 4 = match m with | .steady => 0 | .slow => 1 | .fast => 2)
              ∧ d.cursor = some ⟨addr 15, a 18, a 19, m⟩)
          ∧ a 0 % 4 = match d.touchMode with | .none => 0 | .accept => 1 | .block => 2)
    ∧ ∀ r : RegionRecord,
      let address (x : Addr) : List Byte := [x.extractLsb' 16 8, x.extractLsb' 8 8, x.extractLsb' 0 8]
      ∃ mode : Byte,
        (mode.getLsbD 7 = decide (r.cls = .telltale) ∧ mode.getLsbD 6 = decide (r.source.kind = .bitmap)
          ∧ mode.getLsbD 5 = r.look.visible ∧ mode.getLsbD 4 = r.look.reverse ∧ mode.getLsbD 3 = r.look.blinkEnable
          ∧ mode.getLsbD 2 = false
          ∧ mode.toNat % 4 = match r.touchMode with | .none => 0 | .accept => 1 | .block => 2)
        ∧ descriptorBytes r =
          [mode, BitVec.ofNat 8 r.rect.left, BitVec.ofNat 8 (r.rect.top / 256), BitVec.ofNat 8 r.rect.top,
            BitVec.ofNat 8 r.rect.width, BitVec.ofNat 8 (r.rect.height / 256), BitVec.ofNat 8 r.rect.height]
          ++ address r.source.base
          ++ [BitVec.ofNat 8 (r.source.stride / 256), BitVec.ofNat 8 r.source.stride, BitVec.ofNat 8 r.source.cellHeight,
            BitVec.ofNat 8 r.source.scroll]
          ++ match r.cursor with
            | none => [0, 0, 0, 0, 0, 0]
            | some c =>
              (match c.mode with | .steady => (0x80 : Byte) | .slow => 0x81 | .fast => 0x82)
                :: address c.address ++ [BitVec.ofNat 8 c.firstRaster, BitVec.ofNat 8 c.lastRaster]

/-! ### Composition and the hit test -/

/-- R101, R102: the span list of a line is the maximal runs of one owner over the displayed columns, in order, with no gap and no
overlap. -/
def Obligations.SpanListIsTheRunsOfOwners : Prop :=
  ∀ (s : State) (y : Nat), 1 ≤ s.se.timing.displayedColumns →
    (∃ a, (spanList s y).head? = some a ∧ a.start = 0)
      ∧ (∃ z, (spanList s y).getLast? = some z ∧ z.last + 1 = s.se.timing.displayedColumns)
      ∧ (spanList s y).IsChain (fun a b => b.start = a.last + 1 ∧ a.owner ≠ b.owner)
      ∧ (∀ sp ∈ spanList s y, sp.start ≤ sp.last)
      ∧ (∀ sp ∈ spanList s y, ∀ c, sp.start ≤ c → c ≤ sp.last → ownerOf s (effectiveOrder s) c y = sp.owner)
      ∧ ∀ c, c < s.se.timing.displayedColumns →
          spanOwner (spanList s y) c = ownerOf s (effectiveOrder s) c y

/-- R99, R102: a span list holds at most 65 spans. -/
def Obligations.SpanListHoldsAtMost65 : Prop :=
  ∀ (s : State) (y : Nat), s.Inv → (spanList s y).length ≤ 65

/-- R36, R101, R159: while fallback is effective every cell of the displayed area is owned by the frontmost visible TELLTALE region
that contains it, or else by the fallback region, and none by BACKGROUND; otherwise by the frontmost visible region. A rectangle
contains the cells from its left to left + width − 1 and from its top to top + height − 1. -/
def Obligations.OwnersOfCells : Prop :=
  ∀ (s : State) (c y : Nat),
    (∀ h, ownerOf s (effectiveOrder s) c y = .region h ↔
      ∃ front back, s.rgt.stack = front ++ h :: back
        ∧ isVisible s.rgt.slots h = true
        ∧ (slotAt s.rgt.slots h.slot).record.rect.contains c y = true
        ∧ (s.se.fallbackEffective = true → classOf s.rgt.slots h = .telltale)
        ∧ ∀ g ∈ front, isVisible s.rgt.slots g = true →
            (s.se.fallbackEffective = true → classOf s.rgt.slots g = .telltale) →
            (slotAt s.rgt.slots g.slot).record.rect.contains c y = false)
      ∧ (s.se.fallbackEffective = true → c < s.se.timing.displayedColumns → y < s.se.timing.displayedLines →
          ownerOf s (effectiveOrder s) c y ≠ .background)
      ∧ (s.se.fallbackEffective = false → ownerOf s (effectiveOrder s) c y ≠ .fallback)
      ∧ ∀ r : Rect, r.contains c y = true ↔
          r.left ≤ c ∧ c ≤ r.left + r.width - 1 ∧ 1 ≤ r.width ∧ r.top ≤ y ∧ y ≤ r.top + r.height - 1 ∧ 1 ≤ r.height

/-- R35, R36, R141, R157: the hit test finds a region exactly when it accepts touch, contains the point, and every entry ahead of it either does not
contain the point or has touch mode NONE; it finds none exactly when every entry is so; and otherwise it is blocked. The entries are the visible regions
in their order; while fallback is effective, the visible telltales and then the fallback region, which covers the displayed area and
blocks. -/
def Obligations.HitTestFindsFrontmostAccept : Prop :=
  ∀ (s : State) (p : Point),
    (∀ h, hitTest s p = .hit h ↔
      ∃ front back, effectiveOrder s = front ++ Entry.region h :: back
        ∧ (Entry.region h).contains s p.x p.y = true ∧ (Entry.region h).touchMode s = .accept
        ∧ ∀ e ∈ front, e.contains s p.x p.y = true → e.touchMode s = .none)
      ∧ (hitTest s p = .none ↔ ∀ e ∈ effectiveOrder s, e.contains s p.x p.y = true → e.touchMode s = .none)
      ∧ (hitTest s p = .blocked ↔
        ∃ front e back, effectiveOrder s = front ++ e :: back ∧ e.contains s p.x p.y = true ∧ e.touchMode s = .block
          ∧ ∀ e' ∈ front, e'.contains s p.x p.y = true → e'.touchMode s = .none)
      ∧ (s.se.fallbackEffective = false → effectiveOrder s =
          (s.rgt.stack.filter fun h => isVisible s.rgt.slots h).map Entry.region)
      ∧ (s.se.fallbackEffective = true → effectiveOrder s =
          (s.rgt.stack.filter fun h => isVisible s.rgt.slots h && decide (classOf s.rgt.slots h = .telltale)).map Entry.region
            ++ [Entry.fallback])
      ∧ (∀ h, (Entry.region h).contains s p.x p.y = (slotAt s.rgt.slots h.slot).record.rect.contains p.x p.y
          ∧ (Entry.region h).touchMode s = (slotAt s.rgt.slots h.slot).record.touchMode)
      ∧ (Entry.fallback.contains s p.x p.y = true ↔ p.x < s.se.timing.displayedColumns ∧ p.y < s.se.timing.displayedLines)
      ∧ Entry.fallback.touchMode s = .block

/-! ### Evaluation of a change set -/

/-- R55: the changes are taken one by one in index order, each judged on what the earlier ones have left; the evaluation fails with the
first change that fails, and passes with all of them carried out. -/
def Obligations.EvaluationStopsAtFirstFailure : Prop :=
  ∀ (guard : Bool) (area : Option (Nat × Nat)) (w : Working) (changes : List Change),
    (∀ w', evaluate guard area w changes = .passed w' ↔
      w' = changes.foldl carryOut w
        ∧ ∀ (before after : List Change) (c : Change), changes = before ++ c :: after →
            changeFault guard area (before.foldl carryOut w) c = none)
      ∧ ∀ (i : Nat) (code : FailCode), evaluate guard area w changes = .failed i code ↔
          ∃ (before after : List Change) (c : Change), changes = before ++ c :: after ∧ c.index = i
            ∧ changeFault guard area (before.foldl carryOut w) c = some code
            ∧ ∀ (b a : List Change) (d : Change), before = b ++ d :: a →
                changeFault guard area (b.foldl carryOut w) d = none

/-- R58, R59, R62, R150: an apply point commits the whole set or none of it. A committed set's working copy is the new table and order,
with outcome APPLIED, and PU takes the commit notice on it, with the touch parts the set dropped, within the event; a rejected set changes only its reservations, which are released, with outcome REJECTED. Either way the list is
empty, the set OPEN and outcome-unread set. -/
def Obligations.ApplyIsAllOrNothing : Prop :=
  ∀ s : State,
    (applySet s).csu.changes = [] ∧ (applySet s).csu.setState = .opened ∧ (applySet s).csu.unread = true
      ∧ (applySet s).csu.seq = s.csu.seq
      ∧ (∀ w, evaluate s.rgt.guardInForce s.se.area s.working s.csu.changes = .passed w →
        (∃ n : Nat, applySet s = takeNotice w.dropped
          (((s.setRgt { s.rgt with slots := w.slots, stack := w.stack }).setCsu
            ⟨[], .opened, s.csu.seq, ⟨s.csu.seq, .applied, s.csu.changes.length⟩, true⟩).setFree n))
          ∧ (applySet s).csu.outcome = ⟨s.csu.seq, .applied, s.csu.changes.length⟩
          ∧ (applySet s).rgt.stack = w.stack
          ∧ ∀ i : Fin 32, (slotAt (applySet s).rgt.slots i).state = (slotAt w.slots i).state
              ∧ (slotAt (applySet s).rgt.slots i).gen = (slotAt w.slots i).gen
              ∧ (slotAt (applySet s).rgt.slots i).record = (slotAt w.slots i).record)
      ∧ ∀ i code, evaluate s.rgt.guardInForce s.se.area s.working s.csu.changes = .failed i code →
        applySet s = (s.setSlots (releaseReservations s.rgt.slots s.csu.changes)).setCsu
            ⟨[], .opened, s.csu.seq, ⟨s.csu.seq, .rejected i code, s.csu.changes.length⟩, true⟩
          ∧ (applySet s).csu.outcome = ⟨s.csu.seq, .rejected i code, s.csu.changes.length⟩
          ∧ (applySet s).rgt.stack = s.rgt.stack ∧ (applySet s).pu = s.pu
          ∧ ∀ j : Fin 32, slotAt (applySet s).rgt.slots j =
              if (slotAt s.rgt.slots j).state = .reserved ∧ s.csu.changes.any (·.createsSlot j) then
                Slot.cleared ((slotAt s.rgt.slots j).gen + 1)
              else slotAt s.rgt.slots j

/-- R22, R149, R150: when PU takes a commit notice (which `ApplyIsAllOrNothing` says a commit is taken with), a captured region that
is retired, hidden or has lost its touch part in the committed table is given up with the first of these causes, the contact DOWN_UNCLAIMED; CANCEL news stays in it where it still has a touch part, but for RETIRED. Otherwise
the capture stands. -/
def Obligations.CommitNoticeCancelsCapture : Prop :=
  ∀ (dropped : List (Fin 32)) (s : State),
    (∀ h, s.pu.contact = .captured h →
      (isCurrent s.rgt.slots h = false → (takeNotice dropped s).pu.lastCause = some .retired)
        ∧ (isCurrent s.rgt.slots h = true → isVisible s.rgt.slots h = false →
            (takeNotice dropped s).pu.lastCause = some .hidden)
        ∧ (isCurrent s.rgt.slots h = true → isVisible s.rgt.slots h = true → h.slot ∈ dropped →
            (takeNotice dropped s).pu.lastCause = some .touchOff)
        ∧ (isCurrent s.rgt.slots h = true → isVisible s.rgt.slots h = true → h.slot ∉ dropped → takeNotice dropped s = s)
        ∧ (takeNotice dropped s ≠ s → (takeNotice dropped s).pu.contact = .unclaimed
            ∧ (takeNotice dropped s).pu.silence = s.pu.silence
            ∧ ∀ i : Fin 32, slotAt (takeNotice dropped s).rgt.slots i =
                if i = h.slot then
                  { slotAt s.rgt.slots i with
                    touch := (slotAt s.rgt.slots i).touch.map fun q =>
                      { q with
                        state := .idle
                        news := { q.news with cancel := q.news.cancel || isCurrent s.rgt.slots h } } }
                else slotAt s.rgt.slots i))
      ∧ ((∀ h, s.pu.contact ≠ .captured h) → takeNotice dropped s = s)

/-- R17, R32, R56, R72, R76: the checks a change must pass, in order, and R17's record conditions. Which groups the conditions judge is
read as log entry 16 says. -/
def Obligations.ApplyChecksInOrder : Prop :=
  ∀ (guard : Bool) (area : Option (Nat × Nat)) (w : Working) (index : Nat) (h : Handle),
    let live := isCurrent w.slots h
    let record := (slotAt w.slots h.slot).record
    let target : Option FailCode :=
      if live = false then some .stale
      else if record.locked = true then some .locked
      else if guard = true ∧ record.cls = .telltale then some .guarded
      else none
    changeFault guard area w ⟨index, h, .retire⟩ = target
      ∧ changeFault guard area w ⟨index, h, .lock⟩ = (if live = false then some .stale else none)
      ∧ (∀ d, changeFault guard area w ⟨index, h, .create d⟩ = if recordFits area d = true then none else some .range)
      ∧ (∀ l, changeFault guard area w ⟨index, h, .amend (.look l)⟩ = target)
      ∧ (∀ m, changeFault guard area w ⟨index, h, .amend (.touch m)⟩ = target)
      ∧ (∀ g, (∀ l, g ≠ .look l) → (∀ m, g ≠ .touch m) → changeFault guard area w ⟨index, h, .amend g⟩ =
          if target ≠ none then target
          else if recordFits area (slotAt (carryOut w ⟨index, h, .amend g⟩).slots h.slot).record = false then some .range
          else none)
      ∧ (∀ p, p = Position.front ∨ p = Position.back → changeFault guard area w ⟨index, h, .restack p⟩ = target)
      ∧ (∀ p ref, p = Position.above ref ∨ p = Position.below ref →
          changeFault guard area w ⟨index, h, .restack p⟩ =
            if target ≠ none then target
            else if isCurrent w.slots ref = false then some .stale
            else if classOf w.slots ref ≠ record.cls then some .band
            else none)
      ∧ ∀ d : RegionRecord, recordFits area d = true ↔
          (∃ columns lines, area = some (columns, lines)
            ∧ d.rect.left + d.rect.width ≤ columns ∧ d.rect.top + d.rect.height ≤ lines)
            ∧ d.rect.width ≤ d.source.stride
            ∧ (d.source.kind = .bitmap → d.cursor = none)
            ∧ (d.source.kind = .text → d.source.scroll < d.source.cellHeight)

/-- R19, R20, R21, R22, R30, R31, R33, R76: what a change that has passed does to the working copy's slots, to its list (a RESTACK's
place is `RestackPlaces`), and to the touch parts dropped so far. -/
def Obligations.CarriedOutChanges : Prop :=
  ∀ (w : Working) (index : Nat) (h : Handle),
    let x := slotAt w.slots h.slot
    (∀ d : RegionRecord,
      slotAt (carryOut w ⟨index, h, .create d⟩).slots h.slot =
          ⟨.live, x.gen, { d with locked := false },
            if d.touchMode = .accept then some ⟨.idle, ⟨0, 0⟩, ⟨0, 0⟩, 0, ⟨false, false, false, false⟩⟩ else none⟩
        ∧ (carryOut w ⟨index, h, .create d⟩).stack =
            if d.cls = .telltale then h :: w.stack
            else w.stack.take (telltaleCount w.slots w.stack) ++ h :: w.stack.drop (telltaleCount w.slots w.stack))
      ∧ (slotAt (carryOut w ⟨index, h, .retire⟩).slots h.slot = Slot.cleared (x.gen + 1)
        ∧ (carryOut w ⟨index, h, .retire⟩).stack = w.stack.erase h)
      ∧ (slotAt (carryOut w ⟨index, h, .lock⟩).slots h.slot = { x with record := { x.record with locked := true } }
        ∧ (carryOut w ⟨index, h, .lock⟩).stack = w.stack)
      ∧ (∀ r, slotAt (carryOut w ⟨index, h, .amend (.geometry r)⟩).slots h.slot =
          { x with record := { x.record with rect := r } })
      ∧ (∀ r, slotAt (carryOut w ⟨index, h, .amend (.source r)⟩).slots h.slot =
          { x with record := { x.record with source := r } })
      ∧ (∀ base offset, slotAt (carryOut w ⟨index, h, .amend (.scroll base offset)⟩).slots h.slot =
          { x with record := { x.record with source := { x.record.source with
              base := base, scroll := if x.record.source.kind = .bitmap then 0 else offset } } })
      ∧ (∀ l, slotAt (carryOut w ⟨index, h, .amend (.look l)⟩).slots h.slot =
          { x with record := { x.record with look := l } })
      ∧ (∀ c, slotAt (carryOut w ⟨index, h, .amend (.cursor c)⟩).slots h.slot =
          { x with record := { x.record with cursor := c } })
      ∧ (∀ m, slotAt (carryOut w ⟨index, h, .amend (.touch m)⟩).slots h.slot =
          { x with
            record := { x.record with touchMode := m }
            touch := if m = x.record.touchMode then x.touch
              else if m = .accept then some ⟨.idle, ⟨0, 0⟩, ⟨0, 0⟩, 0, ⟨false, false, false, false⟩⟩ else none })
      ∧ (∀ g, (carryOut w ⟨index, h, .amend g⟩).stack = w.stack)
      ∧ (∀ p, (carryOut w ⟨index, h, .restack p⟩).slots = w.slots
        ∧ (carryOut w ⟨index, h, .restack p⟩).stack = restackList w.free w.slots w.stack h p)
      ∧ (carryOut w ⟨index, h, .retire⟩).dropped = (if x.touch.isSome = true then h.slot :: w.dropped else w.dropped)
      ∧ (∀ m, (carryOut w ⟨index, h, .amend (.touch m)⟩).dropped =
          if x.touch.isSome = true ∧ m ≠ x.record.touchMode then h.slot :: w.dropped else w.dropped)
      ∧ (∀ op, op ≠ .retire → (∀ m, op ≠ .amend (.touch m)) → (carryOut w ⟨index, h, op⟩).dropped = w.dropped)
      ∧ (∀ op, (carryOut w ⟨index, h, op⟩).free = w.free)
      ∧ ∀ op, ∀ i : Fin 32, i ≠ h.slot → slotAt (carryOut w ⟨index, h, op⟩).slots i = slotAt w.slots i

/-- R31, R189: a RESTACK removes its target and inserts it again at the front or the back of its own band (position 0, the telltale count
of the list without it, or the end of that list), directly ahead of its ref, or
directly behind it; the other handles keep their order, and the same RESTACK a second time leaves the list as it is, also
where the place is free (log entry 4). For a list that holds the target and the ref once each, in its bands. -/
def Obligations.RestackPlaces : Prop :=
  ∀ (free : Nat) (t : SlotTable) (stack : List Handle) (target : Handle), stack.Nodup → target ∈ stack →
    (stack.Pairwise fun a b => classOf t a = .telltale ∨ classOf t b = .ordinary) →
      (∀ p, ((restackList free t stack target p).erase target = stack.erase target
          ∧ (restackList free t stack target p).Perm stack
          ∧ restackList free t (restackList free t stack target p) target p = restackList free t stack target p))
      ∧ (∀ a ∈ stack, a ≠ target → classOf t a = classOf t target →
          (restackList free t stack target .front).idxOf target < (restackList free t stack target .front).idxOf a
            ∧ (restackList free t stack target .back).idxOf a < (restackList free t stack target .back).idxOf target)
      ∧ (∀ a ∈ stack, classOf t a = .telltale → classOf t target = .ordinary →
          (restackList free t stack target .front).idxOf a < (restackList free t stack target .front).idxOf target)
      ∧ (∀ a ∈ stack, classOf t a = .ordinary → classOf t target = .telltale →
          (restackList free t stack target .back).idxOf target < (restackList free t stack target .back).idxOf a)
      ∧ (let rest := stack.erase target
        let telltales := rest.countP fun a => classOf t a == .telltale
        (restackList free t stack target .front).idxOf target = (if classOf t target = .telltale then 0 else telltales)
          ∧ (restackList free t stack target .back).idxOf target
            = if classOf t target = .telltale then telltales else rest.length)
      ∧ ∀ ref ∈ stack, ref ≠ target →
          (restackList free t stack target (.above ref)).idxOf ref
              = (restackList free t stack target (.above ref)).idxOf target + 1
            ∧ (restackList free t stack target (.below ref)).idxOf target
              = (restackList free t stack target (.below ref)).idxOf ref + 1

/-! ### Dots and addresses -/

/-- R123: the blink and cursor phases as functions of the frame counter. -/
def Obligations.BlinkPhases : Prop :=
  ∀ f : BitVec 6,
    (f.toNat ≤ 15 → blinkHidden f = false ∧ cursorOn f .steady = true ∧ cursorOn f .slow = true ∧ cursorOn f .fast = true)
      ∧ (16 ≤ f.toNat → f.toNat ≤ 31 →
        blinkHidden f = false ∧ cursorOn f .steady = true ∧ cursorOn f .slow = true ∧ cursorOn f .fast = false)
      ∧ (32 ≤ f.toNat → f.toNat ≤ 47 →
        blinkHidden f = true ∧ cursorOn f .steady = true ∧ cursorOn f .slow = false ∧ cursorOn f .fast = true)
      ∧ (48 ≤ f.toNat →
        blinkHidden f = true ∧ cursorOn f .steady = true ∧ cursorOn f .slow = false ∧ cursorOn f .fast = false)

/-- R120, R122, R125, R126, R128, R130, R131, R132: every dot of a cell, leftmost first, from its base dot and the number of inversions
that hold; and the groups of four in which the dots leave, leftmost first, DOUT[3] carrying the leftmost dot of each. -/
def Obligations.DotsOfACell : Prop :=
  (∀ (width : Nat) (frame : BitVec 6) (x : Cell) (i : Nat), i < width →
    let pattern := x.pattern.getLsbD (width - 1 - i)
    let text : Bool :=
      if x.attr.getLsbD 7 = true then true
      else if x.attr.getLsbD 6 = true then false
      else if x.attr.getLsbD 5 = true ∧ x.blinkEnable = true ∧ 32 ≤ frame.toNat then false
      else pattern
    let cursor : Bool := decide (∃ c, x.cursor = some c ∧ x.address = c.address ∧ c.firstRaster ≤ x.raster.toNat
      ∧ x.raster.toNat ≤ c.lastRaster ∧ x.raster.toNat ≤ x.cellHeight - 1 ∧ cursorOn frame c.mode = true)
    let count := (x.attr.getLsbD 4).toNat + x.reverse.toNat + cursor.toNat
    (resolve width frame x).length = width
      ∧ (x.kind = .text → (resolve width frame x)[i]? = some (if count % 2 = 1 then !text else text))
      ∧ (x.kind = .bitmap → (resolve width frame x)[i]? = some (if x.reverse = true then !pattern else pattern))
      ∧ (x.kind = .fallback → (resolve width frame x)[i]? = some pattern)
      ∧ (x.kind = .background → (resolve width frame x)[i]? = some false))
    ∧ ∀ (dots : List Bool), dots.length % 4 = 0 →
        (groupDots dots).length * 4 = dots.length
          ∧ ∀ (i : Nat) (g : BitVec 4), (groupDots dots)[i]? = some g →
              dots[4 * i]? = some (g.getLsbD 3) ∧ dots[4 * i + 1]? = some (g.getLsbD 2)
                ∧ dots[4 * i + 2]? = some (g.getLsbD 1) ∧ dots[4 * i + 3]? = some (g.getLsbD 0)

/-- R104, R105, R106, R107, R108, R109, R110, R111: the cell LC issues for each owner: its address modulo 16,777,216, its raster,
whether it is fetched, and the fields of the record that are handed with it. -/
def Obligations.CellAddresses : Prop :=
  ∀ (s : State) (c y : Nat) (pdata : BitVec 16) (adata : Byte),
    (∀ h, let r := (slotAt s.rgt.slots h.slot).record
      let cell := cellOf s (.region h) c y pdata adata
      r.source.inRange → r.rect.contains c y = true →
        cell.fetched = true ∧ cell.pattern = pdata
          ∧ (r.source.kind = .text →
            cell.kind = .text ∧ cell.attr = adata ∧ cell.cursor = r.cursor ∧ cell.reverse = r.look.reverse
              ∧ cell.blinkEnable = r.look.blinkEnable ∧ cell.cellHeight = r.source.cellHeight
              ∧ cell.address.toNat = (r.source.base.toNat
                  + (y - r.rect.top + r.source.scroll) / r.source.cellHeight * r.source.stride + (c - r.rect.left)) % 16777216
              ∧ cell.raster.toNat = (y - r.rect.top + r.source.scroll) % r.source.cellHeight
              ∧ cell.raster.toNat ≤ r.source.cellHeight - 1)
          ∧ (r.source.kind = .bitmap →
            cell.kind = .bitmap ∧ cell.raster = 0 ∧ cell.cursor = none ∧ cell.reverse = r.look.reverse
              ∧ cell.blinkEnable = r.look.blinkEnable
              ∧ cell.address.toNat = (r.source.base.toNat + (y - r.rect.top) * r.source.stride + (c - r.rect.left)) % 16777216))
      ∧ (let cell := cellOf s .fallback c y pdata adata
        cell.kind = .fallback ∧ cell.fetched = true ∧ cell.raster = 0 ∧ cell.pattern = pdata
          ∧ cell.address.toNat
            = (s.se.timing.fallbackBase.toNat + y * s.se.timing.fallbackStride + c) % 16777216)
      ∧ (let cell := cellOf s .background c y pdata adata
        cell.kind = .background ∧ cell.fetched = false ∧ cell.address = 0 ∧ cell.raster = 0)

/-! ### Power and resets -/

/-- R24, R64, R82, R96, R118, R133, R154, R182: the state after power-on, with the lines at the levels given. The levels of MADDR and RAST
are log entry 10's choice, the RESET line recorded as released is log entry 9's, and that the column drivers and the model's own
fields stay is log entry 11's and 12's. -/
def Obligations.PowerOnGivesTheResetState : Prop :=
  ∀ (select guard fallback : LineLevel) (s : State), exec (.powerOn select guard fallback) s = .next
    { rgt :=
        ⟨Vector.replicate 32
          ⟨.free, 0,
            ⟨.ordinary, false, ⟨0, 0, 0, 0⟩, ⟨.text, 0, 0, 1, 0⟩, ⟨false, false, false⟩, none, .none⟩, none⟩,
          [], false, guard⟩
      csu := ⟨[], .opened, 0, ⟨0, .none, 0⟩, false⟩
      se := ⟨.stopped, ⟨8, 0, 0, 0, 0, 0, 0⟩, false, 0, fallback, false, .outside, none, false⟩
      lc := ⟨[], 0⟩
      cou := ⟨none, 0⟩
      pu := ⟨.waiting, false, 8, .up, 0, false, false, none⟩
      hp :=
        ⟨if select = .released then .idle else .held, [], false, false, false, false, ⟨false, false, false⟩, false, select,
          .released⟩
      pins := ⟨false, if select = .released then none else some [], 0, 0, false, 0, [], false, false⟩
      panel := s.panel
      freeReads := s.freeReads
      pending := s.pending }

/-- R25, R39, R65, R93, R97, R118, R133, R155, R182, R183: the state after the RESET line is asserted; a cell in progress is dropped
with its remaining groups unshifted. A line that is asserted already acts as asserted again (log entry 3), and the soft reset of a
reply that is cut is marked as due (log entry 8). That the bits of a byte in progress go with the transaction is log entry 18's
choice. -/
def Obligations.ResetAssertState : Prop :=
  ∀ s : State, s.Inv → s.hp.softResetDue = false → ∃ t, exec .resetAssert s = .next t
    ∧ (∀ i : Fin 32, slotAt t.rgt.slots i =
        if (slotAt s.rgt.slots i).state = .reserved then Slot.cleared ((slotAt s.rgt.slots i).gen + 1)
        else { slotAt s.rgt.slots i with
          touch := (slotAt s.rgt.slots i).touch.map fun _ => ⟨.idle, ⟨0, 0⟩, ⟨0, 0⟩, 0, ⟨false, false, false, false⟩⟩ })
    ∧ t.rgt.stack = s.rgt.stack ∧ t.rgt.guardEnable = s.rgt.guardEnable ∧ t.rgt.guardLine = s.rgt.guardLine
    ∧ t.csu.changes = [] ∧ t.csu.setState = .opened ∧ t.csu.seq = s.csu.seq
    ∧ (s.csu.setState = .pending →
        t.csu.outcome = ⟨s.csu.seq, .discarded, s.csu.changes.length⟩ ∧ t.csu.unread = true)
    ∧ (s.csu.setState = .opened → t.csu.outcome = s.csu.outcome ∧ t.csu.unread = s.csu.unread)
    ∧ t.se = ⟨.stopped, s.se.timing, s.se.timingValid, 0, s.se.fallbackLine, false, .outside, none, false⟩
    ∧ t.lc = ⟨[], 0⟩ ∧ t.cou = ⟨none, 0⟩ ∧ t.panel = s.panel
    ∧ t.pu = ⟨s.pu.receiver, s.pu.enable, s.pu.timeout, .up, 0, false, false,
        match s.pu.contact with
          | .captured _ => some .reset
          | .up => s.pu.lastCause
          | .unclaimed => s.pu.lastCause⟩
    ∧ t.hp = ⟨.held, [], false, false, false, false, s.hp.mask,
        (match s.hp.trans with | .replying _ _ soft => soft | _ => false), s.hp.select, .asserted⟩
    ∧ t.pins = ⟨noteLevel t, if s.hp.select = .asserted then some [] else none, 0, 0, false, 0, [], false, false⟩

/-- R26, R39, R66, R74, R98, R118, R133, R156, R181, R182: the state after the soft reset has acted; with none due (its request was
not taken, or it has acted before another event) SOFT_RESET_ACTION has none to act (log entries 3, 8). -/
def Obligations.SoftResetActionState : Prop :=
  (∀ s : State, s.hp.softResetDue = false → exec .softResetAction s = .next s.judgeNote)
    ∧ ∀ s : State, s.Inv → s.hp.softResetDue = true → ∃ t, exec .softResetAction s = .next t
      ∧ (∀ i : Fin 32,
          let x := slotAt s.rgt.slots i
          slotAt t.rgt.slots i =
            if x.state = .reserved then Slot.cleared (x.gen + 1)
            else if x.state = .live ∧ x.record.locked = false
                ∧ ¬(x.record.cls = .telltale ∧ s.rgt.guardEnable = true ∧ s.rgt.guardLine = .asserted) then
              Slot.cleared (x.gen + 1)
            else { x with touch := x.touch.map fun _ => ⟨.idle, ⟨0, 0⟩, ⟨0, 0⟩, 0, ⟨false, false, false, false⟩⟩ })
      ∧ t.rgt.stack = (s.rgt.stack.filter fun h => isLive t.rgt.slots h)
      ∧ t.rgt.guardEnable = s.rgt.guardEnable ∧ t.rgt.guardLine = s.rgt.guardLine
      ∧ t.csu.changes = [] ∧ t.csu.setState = .opened ∧ t.csu.seq = s.csu.seq
      ∧ (s.csu.setState = .pending →
          t.csu.outcome = ⟨s.csu.seq, .discarded, s.csu.changes.length⟩ ∧ t.csu.unread = true)
      ∧ (s.csu.setState = .opened → t.csu.outcome = s.csu.outcome ∧ t.csu.unread = s.csu.unread)
      ∧ t.se = ⟨.stopped, s.se.timing, s.se.timingValid, 0, s.se.fallbackLine, false, .outside, none, false⟩
      ∧ t.lc = ⟨[], 0⟩ ∧ t.cou = ⟨none, 0⟩ ∧ t.panel = s.panel
      ∧ t.pu = ⟨s.pu.receiver, s.pu.enable, s.pu.timeout, .up, 0, false, false,
          match s.pu.contact with
          | .captured _ => some .reset
          | .up => s.pu.lastCause
          | .unclaimed => s.pu.lastCause⟩
      ∧ t.hp = ⟨s.hp.trans, s.hp.bits, false, false, false, false, s.hp.mask, false, s.hp.select, s.hp.resetLine⟩
      ∧ t.pins = ⟨noteLevel t, s.pins.sdo, 0, 0, false, 0, [], false, false⟩

/-- R67, R95, R182, R183: a change of GUARD or FALLBACK replaces the line's record and nothing else; the release of RESET makes the port
IDLE when SELECT is high and HELD when it is low, and a RESET line already released does not change (log entry 3). -/
def Obligations.BoardLineChanges : Prop :=
  ∀ s : State, s.hp.softResetDue = false →
    (∀ level, exec (.guardLineChange level) s = .next (s.setRgt { s.rgt with guardLine := level }).judgeNote)
      ∧ (∀ level, exec (.fallbackLineChange level) s = .next (s.setSe { s.se with fallbackLine := level }).judgeNote)
      ∧ (s.hp.resetLine = .asserted → s.hp.select = .released →
          exec .resetRelease s = .next (s.setHp { s.hp with resetLine := .released, trans := .idle }).judgeNote)
      ∧ (s.hp.resetLine = .asserted → s.hp.select = .asserted →
          exec .resetRelease s = .next (s.setHp { s.hp with resetLine := .released, trans := .held }).judgeNote)
      ∧ (s.hp.resetLine = .released → exec .resetRelease s = .next s.judgeNote)

/-! ### The host port's edges and bytes -/

/-- R165, R167, R173, R174, R180, R182, R183: the edges of SELECT and the bits sampled between them. At a fall the bit count starts
from zero; while SELECT is low HP holds the bits of SDI until there are eight, whichever byte they are of, and SDO carries the first
bits of its own byte, a reply's in REPLYING and 0x00 otherwise; at a rise a partial byte is discarded, and counts as not received. While
SELECT is high HP ignores SCLK and SDI, and while RESET is held SCLK, with SDO at 0. A line already at the level does not change, and a
ninth bit is another row's (log entry 3); HELD stays HELD while RESET is held (log entry 17). -/
def Obligations.SelectEdges : Prop :=
  ∀ s : State, s.hp.softResetDue = false →
    (s.hp.select = .asserted → exec .selectFall s = .next s.judgeNote)
      ∧ (s.hp.select = .released → s.hp.trans = .idle → s.hp.resetLine = .released →
        exec .selectFall s = .next ((s.setHp { s.hp with
            select := .asserted, bits := []
            trans := .receiving ⟨none, none, [], 0⟩ }).setPins { s.pins with sdo := some [] }).judgeNote)
      ∧ (s.hp.select = .released → (s.hp.trans ≠ .idle ∨ s.hp.resetLine = .asserted) →
        exec .selectFall s = .next ((s.setHp { s.hp with select := .asserted, bits := [] }).setPins
          { s.pins with sdo := some [] }).judgeNote)
      ∧ (s.hp.select = .released → exec .selectRise s = .next s.judgeNote)
      ∧ (s.hp.select = .asserted → ∀ f, s.hp.trans = .receiving f →
        exec .selectRise s = .next ((s.setHp { s.hp with
            select := .released, bits := [], trans := .idle
            cutFault := if f.kind = none then s.hp.cutFault else true }).setPins { s.pins with sdo := none }).judgeNote)
      ∧ (s.hp.select = .asserted → ∀ reply sent soft, s.hp.trans = .replying reply sent soft →
        exec .selectRise s = .next ((s.setHp { s.hp with
            select := .released, bits := [], trans := .idle, softResetDue := soft }).setPins { s.pins with sdo := none }).judgeNote)
      ∧ (s.hp.select = .asserted → (s.hp.trans = .idle ∨ s.hp.trans = .draining
            ∨ s.hp.trans = .held ∧ s.hp.resetLine = .released) →
        exec .selectRise s = .next ((s.setHp { s.hp with select := .released, bits := [], trans := .idle }).setPins
          { s.pins with sdo := none }).judgeNote)
      ∧ (s.hp.select = .asserted → s.hp.trans = .held → s.hp.resetLine = .asserted →
        exec .selectRise s = .next ((s.setHp { s.hp with select := .released, bits := [] }).setPins
          { s.pins with sdo := none }).judgeNote)
      ∧ ∀ (c : Instr) (sdi : SdiBits), clocksPort c sdi s →
        let bits := s.hp.bits ++ sdi
        (s.hp.select = .asserted → s.hp.resetLine = .released → bits.length < 8 → ∀ out : Byte,
            (∀ reply sent soft, s.hp.trans = .replying reply sent soft → reply[sent]? = some out) →
            ((∀ reply sent soft, s.hp.trans ≠ .replying reply sent soft) → out = 0) →
            exec c s = .next ((s.setHp { s.hp with bits := bits }).setPins
              { s.pins with sdo := some ((byteBits out).take bits.length) }).judgeNote)
          ∧ (s.hp.select = .asserted → s.hp.resetLine = .released → 8 < bits.length → exec c s = .refused .bitsPastTheByte)
          ∧ (s.hp.select = .asserted → s.hp.resetLine = .asserted →
            exec c s = .next (s.setPins { s.pins with sdo := some (List.replicate sdi.length false) }).judgeNote)
          ∧ (s.hp.select = .released → exec c s = .next s.judgeNote)

/-- R167, R168: a byte of a request other than its check byte becomes the kind, then the length, then a parameter, and runs through the
CRC register, while SDO carries the bits of 0x00 (log entry 17). At the check byte the row is refused (log entry 3). -/
def Obligations.RequestBytesAreHeld : Prop :=
  ∀ (b : Byte) (sdi : SdiBits) (f : Frame) (s : State), s.hp.softResetDue = false → Clocked b sdi s →
    s.hp.trans = .receiving f →
    (f.kind = none → f.length = none → exec (.requestByteReceived sdi) s =
        .next ((s.setHp { s.hp with trans := .receiving ⟨some b, none, f.params, crcByte f.crc b⟩, bits := [] }).setPins
          { s.pins with sdo := some (byteBits 0) }).judgeNote)
      ∧ (∀ kind, f.kind = some kind → f.length = none → exec (.requestByteReceived sdi) s =
        .next ((s.setHp { s.hp with trans := .receiving ⟨some kind, some b, f.params, crcByte f.crc b⟩, bits := [] }).setPins
          { s.pins with sdo := some (byteBits 0) }).judgeNote)
      ∧ (∀ kind n, f.kind = some kind → f.length = some n → f.params.length < n.toNat →
        exec (.requestByteReceived sdi) s =
          .next ((s.setHp { s.hp with
              trans := .receiving ⟨some kind, some n, f.params ++ [b], crcByte f.crc b⟩, bits := [] }).setPins
            { s.pins with sdo := some (byteBits 0) }).judgeNote)
      ∧ (∀ kind n, f.kind = some kind → f.length = some n → f.params.length = n.toNat →
        exec (.requestByteReceived sdi) s = .refused .notAtRequestByte)

/-- R167, R171, R172, R180: a reply leaves byte by byte, whatever comes on SDI and however much of the byte has left before; after its check byte the port is DRAINING, and the reset of a SOFT RESET is due.
Outside a request and a reply a byte clocked with SELECT low and RESET released is ignored by every byte's row, with SDO 0x00 (log
entries 3, 17); `SelectEdges` says the same of a byte clocked otherwise. -/
def Obligations.ReplyBytesLeaveInOrder : Prop :=
  (∀ (reply : List Byte) (sent : Nat) (soft : Bool) (s : State), s.hp.softResetDue = false →
    s.hp.select = .asserted → s.hp.resetLine = .released → s.hp.bits.length < 8 → s.hp.trans = .replying reply sent soft →
      (∀ out, reply[sent]? = some out → sent + 1 < reply.length → exec .replyByteShifted s =
        .next ((s.setHp { s.hp with trans := .replying reply (sent + 1) soft, bits := [] }).setPins
          { s.pins with sdo := some (byteBits out) }).judgeNote)
      ∧ (∀ out, reply[sent]? = some out → sent + 1 = reply.length → exec .replyComplete s =
        .next ((s.setHp { s.hp with trans := .draining, bits := [], softResetDue := soft }).setPins
          { s.pins with sdo := some (byteBits out) }).judgeNote)
      ∧ (sent + 1 < reply.length → exec .replyComplete s = .refused .notAtReplyCheck)
      ∧ (sent + 1 = reply.length → exec .replyByteShifted s = .refused .notAtReplyByte)
      ∧ ∀ (b : Byte) (sdi : SdiBits), Clocked b sdi s → exec (.requestByteReceived sdi) s = .refused .notAtRequestByte)
    ∧ ∀ (s : State) (b : Byte) (sdi : SdiBits), s.hp.softResetDue = false → Clocked b sdi s →
      (s.hp.trans = .idle ∨ s.hp.trans = .draining ∨ s.hp.trans = .held) → ∀ c : Instr, clocksPort c sdi s →
        exec c s = .next ((s.setHp { s.hp with bits := [] }).setPins { s.pins with sdo := some (byteBits 0) }).judgeNote

/-! ### The requests -/

/-- R3, R18, R41, R44, R47, R185: CREATE. The slot reserved is the lowest-numbered FREE slot. -/
def Obligations.CreateReservesLowestFreeSlot : Prop :=
  ∀ (p : List Byte) (sdi : SdiBits) (s : State), Presented .create p sdi s →
    (s.csu.setState = .pending → exec (.create sdi) s = .next (s.refusedWith .busy))
      ∧ (s.csu.setState = .opened → 16 ≤ s.csu.changes.length → exec (.create sdi) s = .next (s.refusedWith .full))
      ∧ (s.csu.setState = .opened → s.csu.changes.length < 16 → readDescriptor p = none →
          exec (.create sdi) s = .next (s.refusedWith .range))
      ∧ (∀ d, s.csu.setState = .opened → s.csu.changes.length < 16 → readDescriptor p = some d →
          (∀ i : Fin 32, (slotAt s.rgt.slots i).state ≠ .free) →
            exec (.create sdi) s = .next (s.refusedWith .noSlot))
      ∧ ∀ d (i : Fin 32), s.csu.setState = .opened → s.csu.changes.length < 16 → readDescriptor p = some d →
          (slotAt s.rgt.slots i).state = .free → (∀ j : Fin 32, j < i → (slotAt s.rgt.slots j).state ≠ .free) →
            let h : Handle := ⟨i, (slotAt s.rgt.slots i).gen⟩
            let n := s.csu.changes.length
            exec (.create sdi) s =
              .next (((s.setSlots (putSlot s.rgt.slots i ⟨.reserved, h.gen, d, none⟩)).setCsu
                { s.csu with changes := s.csu.changes ++ [⟨n, h, .create d⟩] }).answered .done
                  [h.toByte, BitVec.ofNat 8 n])

/-- R18, R32, R41, R44, R46, R48, R76, R185, R186: AMEND, RETIRE, RESTACK and LOCK are staged after their checks in order, and touch
no slot. An AMEND's payload is read by its group code from the group area, and a RESTACK's position by its code; a payload that is
not in its ranges, a code that is none, and a ref of ABOVE or BELOW equal to the target are refused with RANGE. -/
def Obligations.StagingRequestsAddRecords : Prop :=
  ∀ (p : List Byte) (sdi : SdiBits) (s : State),
    let target := Handle.ofByte (byteAt p 0)
    let n := s.csu.changes.length
    let judged (payload : Option Operation) (lockChecked : Bool) : State :=
      match payload with
      | none =>
        if s.csu.setState = .pending then s.refusedWith .busy
        else if 16 ≤ n then s.refusedWith .full
        else s.refusedWith .range
      | some op =>
        if s.csu.setState = .pending then s.refusedWith .busy
        else if 16 ≤ n then s.refusedWith .full
        else if isCurrent s.rgt.slots target = false then s.refusedWith .stale
        else if lockChecked = true ∧ (slotAt s.rgt.slots target.slot).state = .live
            ∧ (slotAt s.rgt.slots target.slot).record.locked = true then s.refusedWith .locked
        else (s.setCsu { s.csu with changes := s.csu.changes ++ [⟨n, target, op⟩] }).answered .done [BitVec.ofNat 8 n]
    (Presented .amend p sdi s → exec (.amend sdi) s = .next (judged ((readGroup p).map Operation.amend) true))
      ∧ (Presented .retire p sdi s → exec (.retire sdi) s = .next (judged (some .retire) true))
      ∧ (Presented .restack p sdi s →
          exec (.restack sdi) s = .next (judged ((readPosition p).map Operation.restack) true))
      ∧ (Presented .lock p sdi s → exec (.lock sdi) s = .next (judged (some .lock) false))
      ∧ (let a (i : Nat) : Nat := (byteAt p i).toNat
        let addr (i : Nat) : Addr := BitVec.ofNat 24 (a i * 65536 + a (i + 1) * 256 + a (i + 2))
        let bit (i : Nat) : Bool := (byteAt p 2).getLsbD i
        (∀ g : Group,
          (a 1 = 1 → (readGroup p = some g ↔
              g = .geometry ⟨a 2, a 3 * 256 + a 4, a 5, a 6 * 256 + a 7⟩ ∧ g.inRange))
            ∧ (a 1 = 2 → (readGroup p = some g ↔
              g = .source (if bit 6 = true then ⟨.bitmap, addr 3, a 6 * 256 + a 7, 1, 0⟩
                else ⟨.text, addr 3, a 6 * 256 + a 7, a 8, a 9⟩) ∧ g.inRange))
            ∧ (a 1 = 3 → (readGroup p = some g ↔ g = .scroll (addr 2) (a 5) ∧ g.inRange))
            ∧ (a 1 = 4 → (readGroup p = some g ↔ g = .look ⟨bit 5, bit 4, bit 3⟩))
            ∧ (a 1 = 5 → (readGroup p = some g ↔
              (bit 7 = false ∧ g = .cursor none)
                ∨ (bit 7 = true ∧ ∃ m : BlinkMode, (a 2 % 4 = match m with | .steady => 0 | .slow => 1 | .fast => 2)
                  ∧ g = .cursor (some ⟨addr 3, a 6, a 7, m⟩) ∧ g.inRange)))
            ∧ (a 1 = 6 → (readGroup p = some g ↔
              ∃ m : TouchMode, (a 2 % 4 = match m with | .none => 0 | .accept => 1 | .block => 2) ∧ g = .touch m))
            ∧ (a 1 = 0 ∨ 7 ≤ a 1 → readGroup p ≠ some g))
          ∧ (a 1 = 1 → readPosition p = some .front)
          ∧ (a 1 = 2 → readPosition p = some .back)
          ∧ (a 1 = 3 → readPosition p =
              if byteAt p 2 = byteAt p 0 then none else some (.above (Handle.ofByte (byteAt p 2))))
          ∧ (a 1 = 4 → readPosition p =
              if byteAt p 2 = byteAt p 0 then none else some (.below (Handle.ofByte (byteAt p 2))))
          ∧ (a 1 = 0 ∨ 5 ≤ a 1 → readPosition p = none))

/-- R43, R50, R51, R52, R54, R60, R63, R187: PUBLISH, WITHDRAW, DISCARD and READ OUTCOME, and the five bytes of an outcome record. -/
def Obligations.ChangeSetRequests : Prop :=
  ∀ (p : List Byte) (sdi : SdiBits) (s : State),
    let released := releaseReservations s.rgt.slots s.csu.changes
    let next := s.csu.seq + 1
    (Presented .publish p sdi s →
        (s.csu.setState = .pending → exec (.publish sdi) s = .next (s.refusedWith .busy))
          ∧ (s.csu.setState = .opened → s.se.scan ≠ .stopped → exec (.publish sdi) s =
              .next ((s.setCsu { s.csu with seq := next, setState := .pending }).answered .done [next, 0]))
          ∧ (s.csu.setState = .opened → s.se.scan = .stopped → exec (.publish sdi) s =
              .next ((applySet (s.setCsu { s.csu with seq := next })).answered .done [next, 1])))
      ∧ (Presented .withdraw p sdi s →
        (s.csu.setState = .pending → exec (.withdraw sdi) s =
            .next (((s.setSlots released).setCsu
              ⟨[], .opened, s.csu.seq, ⟨s.csu.seq, .withdrawn, s.csu.changes.length⟩, true⟩).answered .done []))
          ∧ (s.csu.setState = .opened → exec (.withdraw sdi) s = .next (s.refusedWith .tooLate)))
      ∧ (Presented .discard p sdi s →
        (s.csu.setState = .pending → exec (.discard sdi) s = .next (s.refusedWith .busy))
          ∧ (s.csu.setState = .opened → exec (.discard sdi) s =
            .next (((s.setSlots released).setCsu { s.csu with changes := [] }).answered .done [])))
      ∧ (Presented .readOutcome p sdi s → exec (.readOutcome sdi) s =
          .next ((s.setCsu { s.csu with unread := false }).answered .done (outcomeBytes s.csu.outcome)))
      ∧ (∀ o : OutcomeRecord, outcomeBytes o =
          [o.seq,
            match o.result with | .none => 0 | .applied => 1 | .rejected _ _ => 2 | .withdrawn => 3 | .discarded => 4,
            BitVec.ofNat 8 o.count,
            match o.result with | .rejected i _ => BitVec.ofNat 8 i | _ => 0xFF,
            match o.result with
              | .rejected _ .stale => 0x44 | .rejected _ .range => 0x45 | .rejected _ .locked => 0x46
              | .rejected _ .guarded => 0x47 | .rejected _ .band => 0x50 | _ => 0])
      ∧ ∀ i : Fin 32, slotAt released i =
          if (slotAt s.rgt.slots i).state = .reserved ∧ s.csu.changes.any (·.createsSlot i) then
            Slot.cleared ((slotAt s.rgt.slots i).gen + 1)
          else slotAt s.rgt.slots i

/-- R23, R38, R69, R70, R187: READ REGION, READ STACK, GUARD ON and GUARD OFF, and the 24 bytes of a READ REGION reply, whose descriptor
is laid out as `DescriptorReadsBack` says. -/
def Obligations.TableAndGuardRequests : Prop :=
  ∀ (p : List Byte) (sdi : SdiBits) (s : State),
    let h := Handle.ofByte (byteAt p 0)
    (Presented .readRegion p sdi s →
        (isCurrent s.rgt.slots h = true → exec (.readRegion sdi) s =
            .next (s.answered .done (regionBytes h (slotAt s.rgt.slots h.slot) (s.rgt.stack.idxOf h))))
          ∧ (isCurrent s.rgt.slots h = false → exec (.readRegion sdi) s = .next (s.refusedWith .stale)))
      ∧ (∀ (g : Handle) (x : Slot) (position : Nat), x.state ≠ .free → regionBytes g x position =
          g.toByte :: (if x.state = .live then 2 else 1) :: (descriptorBytes x.record ++
            [BitVec.ofNat 8 (128 * x.record.locked.toNat + 64 * x.touch.isSome.toNat + if x.state = .live then 32 else 0),
              if x.state = .live then BitVec.ofNat 8 position else 0xFF]))
      ∧ (Presented .readStack p sdi s → exec (.readStack sdi) s =
          .next (s.answered .done (BitVec.ofNat 8 s.rgt.stack.length
            :: BitVec.ofNat 8 (telltaleCount s.rgt.slots s.rgt.stack) :: s.rgt.stack.map Handle.toByte)))
      ∧ (Presented .guardOn p sdi s → exec (.guardOn sdi) s =
          .next ((s.setRgt { s.rgt with guardEnable := true }).answered .done []))
      ∧ (Presented .guardOff p sdi s →
        (s.rgt.guardLine = .asserted → exec (.guardOff sdi) s = .next (s.refusedWith .guarded))
          ∧ (s.rgt.guardLine = .released → exec (.guardOff sdi) s =
            .next ((s.setRgt { s.rgt with guardEnable := false }).answered .done [])))

/-- R80, R83, R84, R85, R86, R87, R185, R187: SET TIMING, with its fields at their byte positions, READ TIMING, with its thirteen bytes,
START SCAN and STOP SCAN. That check 4 is made on a timing set equal to the one in force too, so that a reservation outside the
displayed area refuses it with RANGE, is the model's choice (log entry 24). -/
def Obligations.ScanRequests : Prop :=
  ∀ (p : List Byte) (sdi : SdiBits) (s : State),
    let a (i : Nat) : Nat := (byteAt p i).toNat
    let t : Timing := ⟨a 0, a 1, a 2, a 3 * 256 + a 4, a 5 * 256 + a 6,
      BitVec.ofNat 24 (a 7 * 65536 + a 8 * 256 + a 9), a 10 * 256 + a 11⟩
    let held := s.se.timing
    let good : Prop :=
      (t.cellWidth = 8 ∨ t.cellWidth = 16) ∧ 12 ≤ t.totalColumns ∧ t.totalColumns ≤ 255
        ∧ 8 ≤ t.displayedColumns ∧ t.displayedColumns + 4 ≤ t.totalColumns ∧ t.displayedColumns ≤ 200
        ∧ 8 ≤ t.displayedLines ∧ t.displayedLines ≤ 800 ∧ t.displayedLines + 2 ≤ t.totalLines ∧ t.totalLines ≤ 1023
        ∧ 1 ≤ t.fallbackStride ∧ t.fallbackStride ≤ 4095 ∧ t.displayedColumns ≤ t.fallbackStride
        ∧ ∀ i : Fin 32, (slotAt s.rgt.slots i).state ≠ .free →
            (slotAt s.rgt.slots i).record.rect.left + (slotAt s.rgt.slots i).record.rect.width ≤ t.displayedColumns
              ∧ (slotAt s.rgt.slots i).record.rect.top + (slotAt s.rgt.slots i).record.rect.height ≤ t.displayedLines
    (Presented .setTiming p sdi s →
        (s.se.scan ≠ .stopped → exec (.setTiming sdi) s = .next (s.refusedWith .state))
          ∧ (s.se.scan = .stopped → ¬good → exec (.setTiming sdi) s = .next (s.refusedWith .range))
          ∧ (s.se.scan = .stopped → good → exec (.setTiming sdi) s =
              .next ((s.setSe { s.se with timing := t, timingValid := true }).answered .done [])))
      ∧ (Presented .readTiming p sdi s → exec (.readTiming sdi) s =
          .next (s.answered .done
            [if s.se.timingValid = true then 1 else 0, BitVec.ofNat 8 held.cellWidth, BitVec.ofNat 8 held.totalColumns,
              BitVec.ofNat 8 held.displayedColumns, BitVec.ofNat 8 (held.totalLines / 256), BitVec.ofNat 8 held.totalLines,
              BitVec.ofNat 8 (held.displayedLines / 256), BitVec.ofNat 8 held.displayedLines,
              held.fallbackBase.extractLsb' 16 8, held.fallbackBase.extractLsb' 8 8, held.fallbackBase.extractLsb' 0 8,
              BitVec.ofNat 8 (held.fallbackStride / 256), BitVec.ofNat 8 held.fallbackStride]))
      ∧ (Presented .startScan p sdi s →
        (s.se.scan = .stopped → s.se.timingValid = true → exec (.startScan sdi) s =
            .next ((s.setSe { s.se with scan := .running, frame := 0, place := .outside, stop := none }).answered .done []))
          ∧ ((s.se.scan ≠ .stopped ∨ s.se.timingValid = false) →
            exec (.startScan sdi) s = .next (s.refusedWith .state)))
      ∧ (Presented .stopScan p sdi s →
        (s.se.scan = .running → (∃ y, s.se.place = .before y ∨ s.se.place = .inLine y) → exec (.stopScan sdi) s =
            .next ((s.setSe { s.se with scan := .stopping, stop := some .lastLineEnd }).answered .done []))
          ∧ (s.se.scan = .running → (s.se.place = .outside ∨ ∃ k, s.se.place = .retrace k) → exec (.stopScan sdi) s =
            .next ((s.setSe { s.se with scan := .stopping, stop := some .nextFrameStart }).answered .done []))
          ∧ (s.se.scan = .stopped → exec (.stopScan sdi) s = .next (s.answered .done []))
          ∧ (s.se.scan = .stopping → exec (.stopScan sdi) s = .next (s.refusedWith .state)))

/-- R138, R149, R152, R153, R185, R187: POINTER SETTINGS, READ TOUCH and PROBE, with the bytes of their replies. -/
def Obligations.PointerRequests : Prop :=
  ∀ (p : List Byte) (sdi : SdiBits) (s : State),
    let h := Handle.ofByte (byteAt p 0)
    let enable := decide (byteAt p 0 = 1)
    let timeout := (byteAt p 1).toNat
    let point : Point := ⟨(byteAt p 0).toNat, (byteAt p 1).toNat * 256 + (byteAt p 2).toNat⟩
    let inside := s.se.timingValid = true ∧ point.x < s.se.timing.displayedColumns ∧ point.y < s.se.timing.displayedLines
    let found : List Entry := (effectiveOrder s).filter fun e => e.contains s point.x point.y
    (Presented .pointerSettings p sdi s →
        (((byteAt p 0 ≠ 0 ∧ byteAt p 0 ≠ 1) ∨ timeout = 0 ∨ 15 < timeout) →
            exec (.pointerSettings sdi) s = .next (s.refusedWith .range))
          ∧ ((byteAt p 0 = 0 ∨ byteAt p 0 = 1) → 1 ≤ timeout → timeout ≤ 15 → (s.pu.enable = false ∨ enable = true) →
            exec (.pointerSettings sdi) s =
              .next ((s.setPu { s.pu with enable := enable, timeout := timeout }).answered .done []))
          ∧ (byteAt p 0 = 0 → 1 ≤ timeout → timeout ≤ 15 → s.pu.enable = true → (∀ g, s.pu.contact ≠ .captured g) →
            exec (.pointerSettings sdi) s =
              .next ((s.setPu { s.pu with
                enable := false, timeout := timeout, contact := .up, silence := 0 }).answered .done []))
          ∧ ∀ g, byteAt p 0 = 0 → 1 ≤ timeout → timeout ≤ 15 → s.pu.enable = true → s.pu.contact = .captured g →
            exec (.pointerSettings sdi) s =
              .next (((s.setSlots (mapTouch s.rgt.slots g.slot fun q =>
                  { q with state := .idle, news := { q.news with cancel := true } })).setPu { s.pu with
                enable := false, timeout := timeout, contact := .up, silence := 0
                lastCause := some .disabled }).answered .done []))
      ∧ (Presented .readTouch p sdi s →
        (∀ q, isCurrent s.rgt.slots h = true → (slotAt s.rgt.slots h.slot).touch = some q → exec (.readTouch sdi) s =
            .next ((s.setSlots (mapTouch s.rgt.slots h.slot fun q =>
              { q with activations := 0, news := ⟨false, false, false, false⟩ })).answered .done
              [h.toByte, match q.state with | .idle => 0 | .pressed => 1 | .pressedAway => 2,
                BitVec.ofNat 8 q.press.x, BitVec.ofNat 8 (q.press.y / 256), BitVec.ofNat 8 q.press.y,
                BitVec.ofNat 8 q.last.x, BitVec.ofNat 8 (q.last.y / 256), BitVec.ofNat 8 q.last.y,
                BitVec.ofNat 8 q.activations,
                BitVec.ofNat 8 (8 * q.news.press.toNat + 4 * q.news.release.toNat + 2 * q.news.releaseAway.toNat
                  + q.news.cancel.toNat)]))
          ∧ (isCurrent s.rgt.slots h = true → (slotAt s.rgt.slots h.slot).touch = none →
            exec (.readTouch sdi) s = .next (s.refusedWith .range))
          ∧ (isCurrent s.rgt.slots h = false → exec (.readTouch sdi) s = .next (s.refusedWith .stale)))
      ∧ (Presented .probe p sdi s →
        (inside → exec (.probe sdi) s =
            .next (s.answered .done
              ((match hitTest s point with | .none => [0, 0] | .hit g => [1, g.toByte] | .blocked => [2, 0])
                ++ BitVec.ofNat 8 found.length :: found.flatMap fun e =>
                  match e with
                  | .region g =>
                    [match (slotAt s.rgt.slots g.slot).record.touchMode with | .none => 0 | .accept => 1 | .block => 2,
                      g.toByte]
                  | .fallback => [0x82, 0])))
          ∧ (¬inside → exec (.probe sdi) s = .next (s.refusedWith .range)))

/-- R177, R179, R180, R187: READ STATUS, SET NOTE MASK and SOFT RESET, and the thirteen bytes of the status. -/
def Obligations.StatusRequests : Prop :=
  ∀ (p : List Byte) (sdi : SdiBits) (s : State),
    (Presented .readStatus p sdi s → exec (.readStatus sdi) s =
        .next (((s.setHp { s.hp with
            cutFault := false, checkFault := false, lengthFault := false, unknownFault := false }).setPu
          { s.pu with linkFault := false, rangeFault := false, lastCause := none }).answered .done (statusBytes s)))
      ∧ (Presented .setNoteMask p sdi s →
        ((∀ i, i < 3 → byteAt p i = 0 ∨ byteAt p i = 1) → exec (.setNoteMask sdi) s =
            .next ((s.setHp { s.hp with
              mask := ⟨decide (byteAt p 0 = 1), decide (byteAt p 1 = 1), decide (byteAt p 2 = 1)⟩ }).answered .done []))
          ∧ ((∃ i, i < 3 ∧ byteAt p i ≠ 0 ∧ byteAt p i ≠ 1) →
            exec (.setNoteMask sdi) s = .next (s.refusedWith .range)))
      ∧ (Presented .softReset p sdi s → exec (.softReset sdi) s = .next (s.replyWith .done [] true).judgeNote)
      ∧ (statusBytes s)[0]? = some (match s.se.scan with | .stopped => (0 : Byte) | .running => 1 | .stopping => 2)
      ∧ (∀ b, (statusBytes s)[1]? = some b →
          b.getLsbD 7 = s.se.timingValid ∧ b.getLsbD 6 = decide (s.csu.setState = .pending) ∧ b.getLsbD 5 = s.csu.unread
            ∧ b.getLsbD 4 = decide (s.rgt.guardLine = .asserted) ∧ b.getLsbD 3 = s.rgt.guardEnable
            ∧ b.getLsbD 2 = (s.rgt.guardEnable && decide (s.rgt.guardLine = .asserted))
            ∧ b.getLsbD 1 = decide (s.se.fallbackLine = .asserted) ∧ b.getLsbD 0 = s.se.fallbackEffective)
      ∧ (statusBytes s)[2]? = some (s.se.frame.setWidth 8)
      ∧ (statusBytes s)[3]? = some (BitVec.ofNat 8 s.csu.changes.length) ∧ (statusBytes s)[4]? = some s.csu.seq
      ∧ (statusBytes s)[5]? = some (match s.pu.contact with | .up => (0 : Byte) | .captured _ => 1 | .unclaimed => 2)
      ∧ (statusBytes s)[6]? = some (match s.pu.contact with | .captured h => h.toByte | .up => 0 | .unclaimed => 0)
      ∧ (statusBytes s)[7]? = some (match s.pu.lastCause with
          | none => (0 : Byte) | some .retired => 1 | some .hidden => 2 | some .touchOff => 3 | some .fallback => 4
          | some .timeout => 5 | some .disabled => 6 | some .reset => 7)
      ∧ (∀ b, (statusBytes s)[8]? = some b →
          b.toNat < 64 ∧ b.getLsbD 5 = s.pu.linkFault ∧ b.getLsbD 4 = s.pu.rangeFault ∧ b.getLsbD 3 = s.hp.cutFault
            ∧ b.getLsbD 2 = s.hp.checkFault ∧ b.getLsbD 1 = s.hp.lengthFault ∧ b.getLsbD 0 = s.hp.unknownFault)
      ∧ ∀ i : Fin 32, ∀ b, (statusBytes s)[12 - i.val / 8]? = some b →
          b.getLsbD (i.val % 8) = match (slotAt s.rgt.slots i).touch with
            | some q => q.news.press || q.news.release || q.news.releaseAway || q.news.cancel
            | none => false

/-! ### The scan -/

/-- R53, R85, R88, R89, R94, R95, R150, R158: a frame start brings SE's state to the new frame; then CSU applies a PENDING set, and PU takes
its tick, after CSU (the tick is then owed) or before it (log entry 5), as `TickAdvancesSilenceAndJudgesCapture` says. While STOPPED
no frame start is raised and the row changes nothing (log entry 3). What MADDR, RAST and DOUT carry then is free (log entry 12). -/
def Obligations.FrameStartOpensAFrame : Prop :=
  ∀ s : State, s.hp.softResetDue = false →
    (∀ order, s.se.scan = .stopped → exec (.frameStart order) s = .next s.judgeNote)
      ∧ ∀ frame : BitVec 6, s.se.scan = .running →
        ((s.se.place = .outside ∧ frame = s.se.frame)
          ∨ (s.se.place = .retrace (s.se.timing.totalLines - s.se.timing.displayedLines) ∧ frame = s.se.frame + 1)) →
        ∃ (m : Addr) (r : BitVec 5) (d : BitVec 4),
          let u : State := ((s.setSe { s.se with
              frame := frame, fallbackEffective := s.se.fallbackLine == .asserted
              place := .before 0, tickOwed := true }).setPins
            { s.pins with
              maddr := m, rast := r, fetch := false, dout := d, dots := [], lsync := false, fsync := true }).setFree
            (s.freeReads + 1)
          (s.csu.setState = .opened → exec (.frameStart .csuFirst) s = .next u.judgeNote
              ∧ exec (.frameStart .puFirst) s = .next (takeTick u).judgeNote)
            ∧ (s.csu.setState = .pending → exec (.frameStart .csuFirst) s = .next (applySet u).judgeNote
              ∧ exec (.frameStart .puFirst) s = .next (applySet (takeTick u)).judgeNote)

/-- R146, R148, R149: PU's tick, by the contact state: UP, nothing; down, the silence count advances, and at the timeout the contact is
abandoned, a capture with cause TIMEOUT and CANCEL news; short of it a captured ORDINARY region is given up with FALLBACK while
fallback is effective. CONTACT_TIMEOUT is the tick that reaches the timeout (log entry 7). `takeTick`, the tick within a frame start
(`FrameStartOpensAFrame`), is this tick with NOTE not yet judged. -/
def Obligations.TickAdvancesSilenceAndJudgesCapture : Prop :=
  ∀ s : State, s.hp.softResetDue = false → s.se.tickOwed = true →
    let u := s.setSe { s.se with tickOwed := false }
    let cancelled (h : Handle) : SlotTable := mapTouch s.rgt.slots h.slot fun q =>
      { q with state := .idle, news := { q.news with cancel := true } }
    (exec .pointerTick s = .next (takeTick s).judgeNote ∧ (takeTick s).pins = s.pins)
      ∧ (s.pu.contact = .up → exec .pointerTick s = .next u.judgeNote)
      ∧ (s.pu.contact = .unclaimed → s.pu.silence + 1 < s.pu.timeout →
        exec .pointerTick s = .next (u.setPu { s.pu with silence := s.pu.silence + 1 }).judgeNote)
      ∧ (s.pu.contact = .unclaimed → s.pu.timeout ≤ s.pu.silence + 1 →
        ∀ c, c = .pointerTick ∨ c = .contactTimeout →
          exec c s = .next (u.setPu { s.pu with contact := .up, silence := 0 }).judgeNote)
      ∧ (∀ h, s.pu.contact = .captured h → s.pu.timeout ≤ s.pu.silence + 1 →
        ∀ c, c = .pointerTick ∨ c = .contactTimeout →
          exec c s = .next ((u.setSlots (cancelled h)).setPu { s.pu with
            contact := .up, silence := 0, lastCause := some .timeout }).judgeNote)
      ∧ (∀ h, s.pu.contact = .captured h → s.pu.silence + 1 < s.pu.timeout →
          s.se.fallbackEffective = true → classOf s.rgt.slots h = .ordinary →
        exec .pointerTick s = .next ((u.setSlots (cancelled h)).setPu { s.pu with
            contact := .unclaimed, silence := s.pu.silence + 1, lastCause := some .fallback }).judgeNote)
      ∧ (∀ h, s.pu.contact = .captured h → s.pu.silence + 1 < s.pu.timeout →
          (s.se.fallbackEffective = false ∨ classOf s.rgt.slots h = .telltale) →
        exec .pointerTick s = .next (u.setPu { s.pu with silence := s.pu.silence + 1 }).judgeNote)
      ∧ ((s.pu.contact = .up ∨ s.pu.silence + 1 < s.pu.timeout) →
        exec .contactTimeout s = .refused .timeoutNotReached)

/-- R90, R99, R101, R104, R105, R119, R132: a line start builds the span list of its line; each cell is issued for its column's owner
and resolved, after what was left of the cell before has been shifted, and so many of its groups are shifted as the row says, COU
holding it while some are left; the line's end shifts the last, latches the dots and empties the list. A cell reads its owner's
record as it stands then (log entry 14). That a line start empties the column drivers' shifted dots is log entry 11's choice. At the
line start MADDR, RAST and DOUT keep what they carried, and so does DOUT at a cell issue with which no group is shifted. Both are
the model's choices, and what the three carry after the line's end is free (log entry 12). -/
def Obligations.LineIsComposedCellByCell : Prop :=
  ∀ (s : State) (y : Nat), s.hp.softResetDue = false → s.se.scan ≠ .stopped →
    let groupsOf (x : Cell) : List (BitVec 4) := groupDots (resolve s.se.timing.cellWidth s.se.frame x)
    let left : List (BitVec 4) := match s.cou.cell with
      | some x => (groupsOf x).drop s.cou.shifted
      | none => []
    (s.se.place = .before y → s.se.tickOwed = false → exec .lineStart s =
        .next ((((s.setSe { s.se with place := .inLine y }).setLc ⟨spanList s y, 0⟩).setPanel
          { s.panel with shifted := [] }).setPins { s.pins with dots := [], lsync := false, fsync := false }).judgeNote)
      ∧ (∀ (pdata : BitVec 16) (adata : Byte) (n : Nat), s.Inv → s.se.place = .inLine y →
          s.lc.column < s.se.timing.displayedColumns →
        let owner := ownerOf s (effectiveOrder s) s.lc.column y
        let cell := cellOf s owner s.lc.column y pdata adata
        let out := left ++ (groupsOf cell).take n
        (groupsOf cell).length * 4 = s.se.timing.cellWidth
          ∧ exec (.cellIssue ⟨pdata, adata⟩ n) s =
            .next ((((s.setLc { s.lc with column := s.lc.column + 1 }).setCou
                (if n < (groupsOf cell).length then ⟨some cell, n⟩ else ⟨none, 0⟩)).setPanel
                { s.panel with shifted := s.panel.shifted ++ out }).setPins
              { s.pins with
                maddr := cell.address, rast := cell.raster, fetch := cell.fetched
                dots := out, dout := out.getLastD s.pins.dout, lsync := false, fsync := false }).judgeNote)
      ∧ (s.se.place = .inLine y → s.lc.column = s.se.timing.displayedColumns →
        ∃ (m : Addr) (r : BitVec 5) (d : BitVec 4), exec .lineEnd s =
          .next ((((((s.setSe { s.se with
              place := if y + 1 < s.se.timing.displayedLines then .before (y + 1) else .retrace 0 }).setLc ⟨[], 0⟩).setCou
              ⟨none, 0⟩).setPanel ⟨s.panel.shifted ++ left, s.panel.shifted ++ left⟩).setPins
            { s.pins with
              maddr := m, rast := r, fetch := false, dout := d, dots := left, lsync := true, fsync := false }).setFree
            (s.freeReads + 1)).judgeNote)

/-- R53, R85, R87, R91, R92: a retrace line passes with nothing composed; the stop point ends the scan where STOP SCAN set it, with the
frame counter and the fallback-effective flag kept and no tick, and applies a PENDING set. What MADDR, RAST and DOUT carry then is
free (log entry 12). -/
def Obligations.RetraceAndStopPoint : Prop :=
  ∀ s : State, s.hp.softResetDue = false →
    let idle (u : State) (m : Addr) (r : BitVec 5) (d : BitVec 4) : State :=
      (u.setPins { s.pins with
        maddr := m, rast := r, fetch := false, dout := d, dots := [], lsync := false, fsync := false }).setFree
        (s.freeReads + 1)
    (∀ k, s.se.scan ≠ .stopped → s.se.place = .retrace k →
        k < s.se.timing.totalLines - s.se.timing.displayedLines → s.se.stop ≠ some .lastLineEnd →
        ∃ m r d, exec .retraceLine s = .next (idle (s.setSe { s.se with place := .retrace (k + 1) }) m r d).judgeNote)
      ∧ (s.se.scan = .stopping →
        ((s.se.stop = some .lastLineEnd ∧ s.se.place = .retrace 0)
          ∨ (s.se.stop = some .nextFrameStart ∧ (s.se.place = .outside
              ∨ s.se.place = .retrace (s.se.timing.totalLines - s.se.timing.displayedLines)))) →
        ∃ m r d,
          let u := idle ((s.setSe { s.se with scan := .stopped, place := .outside, stop := none }).setCou ⟨none, 0⟩) m r d
          (s.csu.setState = .opened → exec .stopPoint s = .next u.judgeNote)
            ∧ (s.csu.setState = .pending → exec .stopPoint s = .next (applySet u).judgeNote))

/-! ### The pointer -/

/-- R135, R137, R188: the receiver's table over the levels on PRX. A character is a low start bit, the data bits with the least
significant first, the marker bit and the stop bit; one that is kept joins the report; one that is not, or that interrupts a report,
is a LINK fault, whose flag is set while the pointer is enabled, with RESET held or not (log entry 13). A character without its stop
bit is refused at POINTER_CHARACTER_KEPT, and with no start bit nothing arrives (log entry 3). -/
def Obligations.ReceiverFramesCharacters : Prop :=
  (∀ (data : Byte) (marker : Bool) (s : State), s.hp.softResetDue = false →
    let kept (r : Receiver) : State := (s.setPu { s.pu with receiver := r }).judgeNote
    let faulted (r : Receiver) : State :=
      (s.setPu { s.pu with receiver := r, linkFault := s.pu.linkFault || s.pu.enable }).judgeNote
    let line (marker stop : Bool) : PrxBits := (⟨data, marker, stop⟩ : PrxChar).bits
    (s.pu.receiver = .waiting →
        exec (.pointerCharacterKept (line true true)) s = .next (kept (.collecting [data]))
          ∧ exec (.pointerLinkFault (line false true)) s = .next (faulted .waiting))
      ∧ (∀ bytes, s.pu.receiver = .collecting bytes →
        (bytes.length < 4 →
            exec (.pointerCharacterKept (line false true)) s = .next (kept (.collecting (bytes ++ [data]))))
          ∧ exec (.pointerLinkFault (line true true)) s = .next (faulted (.collecting [data])))
      ∧ exec (.pointerLinkFault (line marker false)) s = .next (faulted .waiting)
      ∧ exec (.pointerCharacterKept (line marker false)) s = .refused .characterNotKept)
    ∧ (∀ ch : PrxChar, ch.bits.getLsbD 0 = false ∧ (∀ i, i < 8 → ch.bits.getLsbD (i + 1) = ch.data.getLsbD i)
        ∧ ch.bits.getLsbD 9 = ch.marker ∧ ch.bits.getLsbD 10 = ch.stop ∧ readCharacter ch.bits = some ch)
    ∧ ∀ (line : PrxBits), (line.getLsbD 0 = false → ∃ ch : PrxChar, ch.bits = line)
        ∧ (line.getLsbD 0 = true → ∀ s : State, s.hp.softResetDue = false → ∀ c,
            c = .pointerCharacterKept line ∨ c = .pointerLinkFault line ∨ c = .reportDiscarded line ∨ c = .contact line
              ∨ c = .lift line → exec c s = .next s.judgeNote)

/-- R136, R137, R155: a completed report is discarded with a LINK fault on a bad check byte or an unknown kind, with a RANGE fault outside the
displayed area, and is dropped with no effect while the pointer is disabled or RESET is held; the receiver is WAITING again. A
CONTACT or LIFT that is not taken does as REPORT_DISCARDED does (log entry 3). -/
def Obligations.ReportsAreJudged : Prop :=
  ∀ (kind x high low check : Byte) (s : State), s.hp.softResetDue = false →
    s.pu.receiver = .collecting [kind, x, high, low] →
      let line : PrxBits := (⟨check, false, true⟩ : PrxChar).bits
      let listens := s.pu.enable = true ∧ s.hp.resetLine = .released
      let known := kind = 1 ∨ kind = 2
      let inside := s.se.timingValid = true ∧ x.toNat < s.se.timing.displayedColumns
        ∧ high.toNat * 256 + low.toNat < s.se.timing.displayedLines
      (¬listens → exec (.reportDiscarded line) s = .next (s.setPu { s.pu with receiver := .waiting }).judgeNote)
        ∧ (listens → (check ≠ kind + x + high + low ∨ ¬known) → exec (.reportDiscarded line) s =
            .next (s.setPu { s.pu with receiver := .waiting, linkFault := true }).judgeNote)
        ∧ (listens → check = kind + x + high + low → known → ¬inside → exec (.reportDiscarded line) s =
            .next (s.setPu { s.pu with receiver := .waiting, rangeFault := true }).judgeNote)
        ∧ (listens → check = kind + x + high + low → known → inside →
            exec (.reportDiscarded line) s = .refused .reportTaken)
        ∧ (¬(listens ∧ check = kind + x + high + low ∧ inside) →
            (kind = 1 → exec (.contact line) s = exec (.reportDiscarded line) s)
              ∧ (kind = 2 → exec (.lift line) s = exec (.reportDiscarded line) s))
        ∧ (kind ≠ 1 → exec (.contact line) s = .refused .reportOfOtherKind)
        ∧ (kind ≠ 2 → exec (.lift line) s = .refused .reportOfOtherKind)

/-- R137, R143, R144, R145: a taken CONTACT or LIFT, by the contact state. -/
def Obligations.TakenReportsActOnTheContact : Prop :=
  ∀ (x high low : Byte) (s : State), s.hp.softResetDue = false → s.pu.enable = true → s.hp.resetLine = .released →
    s.se.timingValid = true → x.toNat < s.se.timing.displayedColumns →
    high.toNat * 256 + low.toNat < s.se.timing.displayedLines →
      let contactLine : PrxBits := (⟨1 + x + high + low, false, true⟩ : PrxChar).bits
      let liftLine : PrxBits := (⟨2 + x + high + low, false, true⟩ : PrxChar).bits
      let p : Point := ⟨x.toNat, high.toNat * 256 + low.toNat⟩
      let pu (contact : Contact) : Pu := { s.pu with receiver := .waiting, silence := 0, contact := contact }
      let touched (h : Handle) (f : TouchPart → TouchPart) : State := s.setSlots (mapTouch s.rgt.slots h.slot f)
      let inside (h : Handle) : Bool := (slotAt s.rgt.slots h.slot).record.rect.contains p.x p.y
      (s.pu.receiver = .collecting [1, x, high, low] →
          (∀ h, s.pu.contact = .up → hitTest s p = .hit h → exec (.contact contactLine) s =
              .next ((touched h fun q =>
                { q with state := .pressed, press := p, last := p, news := { q.news with press := true } }).setPu
                (pu (.captured h))).judgeNote)
            ∧ (s.pu.contact = .up → (∀ h, hitTest s p ≠ .hit h) →
              exec (.contact contactLine) s = .next (s.setPu (pu .unclaimed)).judgeNote)
            ∧ (∀ h, s.pu.contact = .captured h → exec (.contact contactLine) s =
              .next ((touched h fun q =>
                { q with state := if inside h = true then .pressed else .pressedAway, last := p }).setPu
                (pu (.captured h))).judgeNote)
            ∧ (s.pu.contact = .unclaimed →
              exec (.contact contactLine) s = .next (s.setPu (pu .unclaimed)).judgeNote))
        ∧ (s.pu.receiver = .collecting [2, x, high, low] →
          ((s.pu.contact = .up ∨ s.pu.contact = .unclaimed) →
              exec (.lift liftLine) s = .next (s.setPu (pu .up)).judgeNote)
            ∧ (∀ h, s.pu.contact = .captured h → inside h = true → exec (.lift liftLine) s =
              .next ((touched h fun q =>
                { q with
                  state := .idle, last := p, activations := min 15 (q.activations + 1)
                  news := { q.news with release := true } }).setPu (pu .up)).judgeNote)
            ∧ (∀ h, s.pu.contact = .captured h → inside h = false → exec (.lift liftLine) s =
              .next ((touched h fun q =>
                { q with state := .idle, last := p, news := { q.news with releaseAway := true } }).setPu
                (pu .up)).judgeNote))

/-! ### Rows that are not the event -/

/-- Log entry 3 (a DESIGN CHOICE of the model), from R85, R88, R89, R135, R167: while the scan is STOPPED no scan happening and no tick is
raised; a row that is not the event the state brings is refused by name. -/
def Obligations.RowsOutOfPlace : Prop :=
  ∀ (s : State) (check : Byte) (data : CellData) (groups : Nat) (order : FrameOrder), s.hp.softResetDue = false →
    let line (marker : Bool) : PrxBits := (⟨check, marker, true⟩ : PrxChar).bits
    (s.se.scan = .stopped → s.se.tickOwed = false → ∀ c,
        c = .frameStart order ∨ c = .lineStart ∨ c = .cellIssue data groups ∨ c = .lineEnd ∨ c = .retraceLine
          ∨ c = .stopPoint ∨ c = .pointerTick ∨ c = .contactTimeout → exec c s = .next s.judgeNote)
      ∧ (s.se.scan ≠ .stopped →
        (∀ y, s.se.place = .before y ∨ s.se.place = .inLine y → exec (.frameStart order) s = .refused .happeningOutOfPlace
            ∧ exec .retraceLine s = .refused .happeningOutOfPlace ∧ exec .stopPoint s = .refused .happeningOutOfPlace)
          ∧ ((∀ y, s.se.place ≠ .before y) → exec .lineStart s = .refused .happeningOutOfPlace)
          ∧ ((s.se.scan = .stopping
              ∨ ∃ k, s.se.place = .retrace k ∧ k ≠ s.se.timing.totalLines - s.se.timing.displayedLines) →
            exec (.frameStart order) s = .refused .happeningOutOfPlace)
          ∧ ((s.se.place = .outside ∨ ∃ k, s.se.place = .retrace k
              ∧ (s.se.timing.totalLines - s.se.timing.displayedLines ≤ k ∨ s.se.stop = some .lastLineEnd)) →
            exec .retraceLine s = .refused .happeningOutOfPlace)
          ∧ (s.se.scan = .running → exec .stopPoint s = .refused .happeningOutOfPlace)
          ∧ (s.se.scan = .stopping →
            ¬(s.se.stop = some .lastLineEnd ∧ s.se.place = .retrace 0) →
            ¬(s.se.stop = some .nextFrameStart ∧ (s.se.place = .outside
                ∨ s.se.place = .retrace (s.se.timing.totalLines - s.se.timing.displayedLines))) →
            exec .stopPoint s = .refused .happeningOutOfPlace)
          ∧ ((∀ y, s.se.place ≠ .inLine y) → exec (.cellIssue data groups) s = .refused .happeningOutOfPlace
            ∧ exec .lineEnd s = .refused .happeningOutOfPlace)
          ∧ (s.se.timing.displayedColumns ≤ s.lc.column →
            exec (.cellIssue data groups) s = .refused .happeningOutOfPlace)
          ∧ (s.lc.column ≠ s.se.timing.displayedColumns → exec .lineEnd s = .refused .happeningOutOfPlace)
          ∧ (s.se.tickOwed = true → exec .lineStart s = .refused .happeningOutOfPlace)
          ∧ (s.se.tickOwed = false → exec .pointerTick s = .refused .noTickOwed
            ∧ exec .contactTimeout s = .refused .noTickOwed))
      ∧ ((s.pu.receiver = .waiting ∨ ∃ bytes, s.pu.receiver = .collecting bytes ∧ bytes.length < 4) →
        exec (.contact (line false)) s = .refused .noReportCompletes ∧ exec (.lift (line false)) s = .refused .noReportCompletes
          ∧ exec (.reportDiscarded (line false)) s = .refused .noReportCompletes)
      ∧ (∀ c, c = .contact (line true) ∨ c = .lift (line true) ∨ c = .reportDiscarded (line true) →
        exec c s = .refused .noReportCompletes)
      ∧ (s.pu.receiver = .waiting → exec (.pointerCharacterKept (line false)) s = .refused .characterNotKept
          ∧ exec (.pointerLinkFault (line true)) s = .refused .characterKept)
      ∧ (∀ bytes, s.pu.receiver = .collecting bytes →
        exec (.pointerCharacterKept (line true)) s = .refused .characterNotKept
          ∧ exec (.pointerLinkFault (line false)) s = .refused .characterKept
          ∧ (4 ≤ bytes.length → exec (.pointerCharacterKept (line false)) s = .refused .characterNotKept))
      ∧ ∀ sdi : SdiBits, Clocked check sdi s →
        (∀ reply sent soft, s.hp.trans = .replying reply sent soft → ∀ k : RequestKind,
            exec (k.row sdi) s = .refused .notAtCheckByte ∧ exec (.framingFault sdi) s = .refused .notAtCheckByte)
          ∧ ∀ f, s.hp.trans = .receiving f →
            exec .replyByteShifted s = .refused .notAtReplyByte ∧ exec .replyComplete s = .refused .notAtReplyCheck
              ∧ ((f.kind = none ∨ f.length = none ∨ ∃ n, f.length = some n ∧ f.params.length ≠ n.toNat) →
                ∀ k : RequestKind, exec (k.row sdi) s = .refused .notAtCheckByte
                  ∧ exec (.framingFault sdi) s = .refused .notAtCheckByte)

end Obligations
end

