-- ==== Sys2Proof/Laws/Check.lean ====
section
/-! SUPPORT. A Boolean reading of the laws of the state, for concrete states: `State.lawful s = true` gives `s.Inv`, so that the
kernel can show by evaluation that a state of a few fields is lawful. -/

namespace Sys2Proof.Machine
open Sys2Proof

/-- The value a Boolean test takes of an optional value, or true where there is none. -/
def allSome {α : Type} (x : Option α) (f : α → Bool) : Bool :=
  match x with
  | some a => f a
  | none => true

/-- What `allSome` says of every value there is. -/
theorem of_allSome {α : Type} {x : Option α} {f : α → Bool} (h : allSome x f = true) : ∀ a, x = some a → f a = true := by
  rintro a rfl; exact h

/-- A Boolean test of all slot numbers. -/
def allSlots (f : Fin 32 → Bool) : Bool := (List.finRange 32).all f

/-- What `allSlots` says of every slot. -/
theorem of_allSlots {f : Fin 32 → Bool} (h : allSlots f = true) (i : Fin 32) : f i = true :=
  List.all_eq_true.1 h i (List.mem_finRange i)

/-- `StackMatches`, clause by clause. -/
def stackCheck (t : SlotTable) (stack : List Handle) : Bool :=
  decide stack.Nodup && stack.all (isLive t)
    && allSlots (fun i => (slotAt t i).state != .live || stack.contains (handleOf t i))
    && decide (stack.Pairwise fun a b => classOf t a = .telltale ∨ classOf t b = .ordinary)

theorem stackMatches_of_check {t : SlotTable} {stack : List Handle} (h : stackCheck t stack = true) : StackMatches t stack := by
  simp only [stackCheck, Bool.and_eq_true, decide_eq_true_eq, List.all_eq_true] at h
  obtain ⟨⟨⟨h1, h2⟩, h3⟩, h4⟩ := h
  refine ⟨h1, h2, fun i hi => ?_, h4⟩
  simpa [hi] using of_allSlots h3 i

/-- `SlotLaw`, clause by clause. -/
def slotCheck (x : Slot) : Bool :=
  match x.state with
  | .free => x == Slot.cleared x.gen
  | .reserved => x.touch.isNone && !x.record.locked
  | .live => x.touch.isSome == (x.record.touchMode == .accept)

theorem slotLaw_of_check {x : Slot} (h : slotCheck x = true) : SlotLaw x := by
  unfold slotCheck at h
  refine ⟨fun e => ?_, fun e => ?_, fun e => ?_⟩ <;> simp only [e] at h
  · simpa using h
  · simpa using h
  · by_cases hm : x.record.touchMode = .accept <;> simp_all

/-- `Change.fitsTable`. -/
def fitsCheck (t : SlotTable) (c : Change) : Bool :=
  match c.op with
  | .create d => slotAt t c.target.slot == ⟨.reserved, c.target.gen, d, none⟩
  | _ => isCurrent t c.target

theorem fitsTable_of_check {t : SlotTable} {c : Change} (h : fitsCheck t c = true) : c.fitsTable t := by
  unfold fitsCheck at h; unfold Change.fitsTable
  split <;> rename_i hc <;> simp_all

/-- `StagingLaw`, clause by clause. -/
def stagingCheck (s : State) : Bool :=
  decide (s.csu.changes.length ≤ 16)
    && decide (s.csu.changes.map Change.index = List.range s.csu.changes.length)
    && allSlots (fun i => ((slotAt s.rgt.slots i).state == .reserved) == s.csu.changes.any (·.createsSlot i))
    && s.csu.changes.all (fitsCheck s.rgt.slots)
    && decide (s.csu.changes.Pairwise fun a b => b.isCreate = true → a.target.slot ≠ b.target.slot)
    && (s.csu.setState != .pending || s.se.scan != .stopped)

theorem stagingLaw_of_check {s : State} (h : stagingCheck s = true) : StagingLaw s := by
  simp only [stagingCheck, Bool.and_eq_true, decide_eq_true_eq] at h
  obtain ⟨⟨⟨⟨⟨h1, h2⟩, h3⟩, h4⟩, h5⟩, h6⟩ := h
  refine ⟨h1, h2, fun i => ?_, fun c hc => fitsTable_of_check (List.all_eq_true.1 h4 c hc),
    h5, fun hp => by simpa [hp] using h6⟩
  have := of_allSlots h3 i
  rw [beq_iff_eq, Bool.eq_iff_iff, beq_iff_eq, List.any_eq_true] at this
  simpa using this

/-- `TouchLaw`, clause by clause. -/
def touchCheck (s : State) : Bool :=
  (match s.pu.contact with
    | .captured h =>
      isLive s.rgt.slots h && isVisible s.rgt.slots h && (slotAt s.rgt.slots h.slot).record.touchMode == .accept
        && (match (slotAt s.rgt.slots h.slot).touch with
          | some q => q.state != .idle
          | none => false)
    | _ => true)
    && allSlots (fun i => allSome (slotAt s.rgt.slots i).touch fun q =>
      decide (q.activations ≤ 15) && (q.state == .idle || s.pu.contact == .captured (handleOf s.rgt.slots i)))
    && (s.pu.contact != .up || s.pu.silence == 0) && decide (s.pu.silence < 15) && decide (1 ≤ s.pu.timeout)
    && decide (s.pu.timeout ≤ 15) && (s.pu.enable || s.pu.contact == .up)

theorem touchLaw_of_check {s : State} (h : touchCheck s = true) : TouchLaw s := by
  simp only [touchCheck, Bool.and_eq_true, decide_eq_true_eq] at h
  obtain ⟨⟨⟨⟨⟨⟨h1, h2⟩, h3⟩, h4⟩, h5⟩, h6⟩, h7⟩ := h
  refine ⟨fun g hg => ?_, fun i q hq => ?_, fun hu => by simpa [hu] using h3, h4, h5, h6, fun he => by simpa [he] using h7⟩
  · rw [hg] at h1
    simp only [Bool.and_eq_true, beq_iff_eq] at h1
    obtain ⟨⟨⟨a, b⟩, c⟩, d⟩ := h1
    refine ⟨a, b, c, ?_⟩
    rcases ht : (slotAt s.rgt.slots g.slot).touch with _ | q
    · simp [ht] at d
    · exact ⟨q, rfl, by simpa [ht] using d⟩
  · have := of_allSome (of_allSlots h2 i) q hq
    simp only [Bool.and_eq_true, decide_eq_true_eq, Bool.or_eq_true, beq_iff_eq] at this
    exact ⟨this.1, fun hne => this.2.resolve_left hne⟩

/-- `AreaLaw`, clause by clause. -/
def areaCheck (s : State) : Bool :=
  allSlots (fun i => (slotAt s.rgt.slots i).state != .live || recordFits s.se.area (slotAt s.rgt.slots i).record)
    && (!s.se.timingValid || (s.se.timing.fieldsInRange && s.se.timing.fieldsRelate))

theorem areaLaw_of_check {s : State} (h : areaCheck s = true) : AreaLaw s := by
  simp only [areaCheck, Bool.and_eq_true] at h
  refine ⟨fun i hi => by simpa [hi] using of_allSlots h.1 i, fun hv => by simpa [hv] using h.2⟩

/-- `cursorInRange`. -/
def cursorCheck (c : Option CursorPart) : Bool :=
  allSome c fun x => decide (x.firstRaster ≤ x.lastRaster) && decide (x.lastRaster ≤ 31)

theorem cursorInRange_of_check {c : Option CursorPart} (h : cursorCheck c = true) : cursorInRange c := by
  intro x hx
  simpa using of_allSome h x hx

/-- `Rect.inRange`. -/
def rectCheck (r : Rect) : Bool :=
  decide (r.left ≤ 199 ∧ r.top ≤ 799 ∧ 1 ≤ r.width ∧ r.width ≤ 200 ∧ 1 ≤ r.height ∧ r.height ≤ 800
    ∧ r.left + r.width ≤ 200 ∧ r.top + r.height ≤ 800)

/-- `Source.inRange`. -/
def sourceCheck (s : Source) : Bool :=
  decide (1 ≤ s.stride ∧ s.stride ≤ 4095
    ∧ (s.kind = .text → 1 ≤ s.cellHeight ∧ s.cellHeight ≤ 32 ∧ s.scroll < s.cellHeight)
    ∧ (s.kind = .bitmap → s.cellHeight = 1 ∧ s.scroll = 0))

theorem source_inRange_of_check {s : Source} (h : sourceCheck s = true) : s.inRange := by
  simpa only [sourceCheck, Source.inRange, decide_eq_true_eq] using h

/-- `RegionRecord.inRange`. -/
def recordCheck (r : RegionRecord) : Bool :=
  rectCheck r.rect && sourceCheck r.source && cursorCheck r.cursor && decide (r.rect.width ≤ r.source.stride)
    && (r.source.kind != .bitmap || r.cursor == none)

theorem record_inRange_of_check {r : RegionRecord} (h : recordCheck r = true) : r.inRange := by
  simp only [recordCheck, rectCheck, sourceCheck, Bool.and_eq_true, decide_eq_true_eq] at h
  obtain ⟨⟨⟨⟨h1, h2⟩, h3⟩, h4⟩, h5⟩ := h
  exact ⟨h1, h2, cursorInRange_of_check h3, h4, fun hk => by simpa [hk] using h5⟩

/-- `Group.inRange`. -/
def groupCheck : Group → Bool
  | .geometry r => rectCheck r
  | .source s => sourceCheck s
  | .scroll _ offset => decide (offset ≤ 31)
  | .look _ => true
  | .cursor c => cursorCheck c
  | .touch _ => true

theorem group_inRange_of_check {g : Group} (h : groupCheck g = true) : g.inRange := by
  cases g with
  | geometry r => simpa [groupCheck, rectCheck, Group.inRange, Rect.inRange] using h
  | source s => exact source_inRange_of_check h
  | scroll b n => simpa [groupCheck, Group.inRange] using h
  | look l => trivial
  | cursor c => exact cursorInRange_of_check h
  | touch m => trivial

/-- `RangeLaw`, clause by clause. -/
def rangeCheck (s : State) : Bool :=
  allSlots (fun i => (slotAt s.rgt.slots i).state == .free || recordCheck (slotAt s.rgt.slots i).record)
    && s.csu.changes.all (fun c =>
      match c.op with
      | .amend g => groupCheck g
      | _ => true)
    && allSlots (fun i => allSome (slotAt s.rgt.slots i).touch fun q =>
      decide (q.press.x ≤ 199 ∧ q.press.y ≤ 799 ∧ q.last.x ≤ 199 ∧ q.last.y ≤ 799))

theorem rangeLaw_of_check {s : State} (h : rangeCheck s = true) : RangeLaw s := by
  simp only [rangeCheck, Bool.and_eq_true] at h
  obtain ⟨⟨h1, h2⟩, h3⟩ := h
  refine ⟨fun i hi => record_inRange_of_check (by simpa [hi] using of_allSlots h1 i), fun c hc g hg => ?_, fun i q hq => ?_⟩
  · have := List.all_eq_true.1 h2 c hc
    rw [hg] at this
    exact group_inRange_of_check this
  · have := of_allSome (of_allSlots h3 i) q hq
    simp only [decide_eq_true_eq] at this
    exact ⟨⟨this.1, this.2.1⟩, this.2.2⟩

/-- `StopPlace.ahead`. -/
def aheadCheck : StopPlace → ScanPlace → Bool
  | .lastLineEnd, .before _ => true
  | .lastLineEnd, .inLine _ => true
  | .lastLineEnd, .retrace k => k == 0
  | .lastLineEnd, .outside => false
  | .nextFrameStart, .outside => true
  | .nextFrameStart, .retrace _ => true
  | .nextFrameStart, .before _ => false
  | .nextFrameStart, .inLine _ => false

theorem ahead_of_check {p : StopPlace} {q : ScanPlace} (h : aheadCheck p q = true) : p.ahead q := by
  cases p <;> cases q <;> simp_all [aheadCheck, StopPlace.ahead]

/-- `ScanPlace.within`. -/
def withinCheck (t : Timing) : ScanPlace → Bool
  | .outside => true
  | .before y => decide (y < t.displayedLines)
  | .inLine y => decide (y < t.displayedLines)
  | .retrace k => decide (k ≤ t.retraceLines)

theorem within_of_check {t : Timing} {p : ScanPlace} (h : withinCheck t p = true) : p.within t := by
  cases p <;> simp_all [withinCheck, ScanPlace.within]

/-- `ScanLaw`, clause by clause. -/
def scanCheck (e : Se) : Bool :=
  (e.scan != .stopped || (e.place == .outside && e.stop == none && !e.tickOwed))
    && (e.scan != .running || e.stop == none)
    && (e.scan != .stopping ||
      (match e.stop with
        | some p => aheadCheck p e.place
        | none => false))
    && (e.scan == .stopped || e.timingValid) && withinCheck e.timing e.place
    && (!e.tickOwed || e.place == .before 0) && (!e.fallbackEffective || e.timingValid)

theorem scanLaw_of_check {e : Se} (h : scanCheck e = true) : ScanLaw e := by
  simp only [scanCheck, Bool.and_eq_true] at h
  obtain ⟨⟨⟨⟨⟨⟨h1, h2⟩, h3⟩, h4⟩, h5⟩, h6⟩, h7⟩ := h
  refine ⟨fun hs => ?_, fun hs => by simpa [hs] using h2, fun hs => ?_, fun hs => by simpa [hs] using h4, within_of_check h5,
    fun ht => by simpa [ht] using h6, fun hf => by simpa [hf] using h7⟩
  · simpa [hs, and_assoc] using h1
  · rcases hp : e.stop with _ | p
    · simp [hs, hp] at h3
    · exact ⟨p, rfl, ahead_of_check (by simpa [hs, hp] using h3)⟩

/-- `LineLaw`, clause by clause. -/
def lineCheck (s : State) : Bool :=
  (match s.se.place with
    | .inLine y => s.lc.spans == spanList s y && decide (s.lc.column ≤ s.se.timing.displayedColumns)
      && allSome s.cou.cell (fun x =>
        decide (s.cou.shifted < (s.cellGroups x).length) && decide (1 ≤ s.lc.column)
          && x == cellOf s (ownerOf s (effectiveOrder s) (s.lc.column - 1) y) (s.lc.column - 1) y x.pattern x.attr)
    | _ => s.lc == ⟨[], 0⟩ && s.cou == ⟨none, 0⟩)
    && (s.cou.cell != none || s.cou.shifted == 0)

theorem lineLaw_of_check {s : State} (h : lineCheck s = true) : LineLaw s := by
  simp only [lineCheck, Bool.and_eq_true] at h
  refine ⟨fun y hy => ?_, fun hn => ?_, fun hc => by simpa [hc] using h.2⟩
  · have h1 := h.1
    simp only [hy, Bool.and_eq_true, beq_iff_eq, decide_eq_true_eq] at h1
    refine ⟨h1.1.1, h1.1.2, fun x hx => ?_⟩
    have h2 := of_allSome h1.2 x hx
    simp only [Bool.and_eq_true, beq_iff_eq, decide_eq_true_eq] at h2
    exact ⟨h2.1.1, s.lc.column - 1, x.pattern, x.attr, by omega, h2.2⟩
  · have h1 := h.1
    split at h1
    · rename_i y hy; exact absurd hy (hn y)
    · simpa using h1

/-- `FrameLaw`. -/
def frameCheck (f : Frame) : Bool :=
  match f.kind, f.length with
  | none, none => f.params == [] && f.crc == 0
  | none, some _ => false
  | some k, none => f.params == [] && f.crc == crc8 [k]
  | some k, some n => decide (f.params.length ≤ n.toNat) && f.crc == crc8 (k :: n :: f.params)

theorem frameLaw_of_check {f : Frame} (h : frameCheck f = true) : FrameLaw f := by
  unfold frameCheck at h; unfold FrameLaw
  split <;> rename_i h1 h2 <;> simp only [h1, h2] at h <;> simp_all

/-- `PortLaw`, clause by clause. -/
def portCheck (p : Hp) : Bool :=
  ((p.trans == .idle) == (p.select == .released && p.resetLine == .released))
    && (p.resetLine != .asserted || p.trans == .held)
    && (match p.trans with
      | .receiving f => frameCheck f
      | .replying reply sent _ => decide (sent < reply.length)
      | _ => true)
    && (!p.softResetDue || p.trans == .idle || p.trans == .draining || p.trans == .held)
    && decide (p.bits.length < 8) && (!(p.select == .released || p.resetLine == .asserted) || p.bits == [])

theorem portLaw_of_check {p : Hp} (h : portCheck p = true) : PortLaw p := by
  simp only [portCheck, Bool.and_eq_true] at h
  obtain ⟨⟨⟨⟨⟨h1, h2⟩, h3⟩, h4⟩, h5⟩, h6⟩ := h
  refine ⟨?_, fun hr => by simpa [hr] using h2, fun f hf => ?_, fun reply sent soft hr => ?_, fun hd => ?_, by simpa using h5,
    fun hb => ?_⟩
  · rw [beq_iff_eq, Bool.eq_iff_iff] at h1
    simpa using h1
  · rw [hf] at h3; exact frameLaw_of_check h3
  · rw [hr] at h3; simpa using h3
  · simpa [hd, or_assoc] using h4
  · rcases hb with hb | hb <;> simpa [hb] using h6

/-- `SdoLaw`. -/
def sdoCheck (s : State) : Bool :=
  ((s.pins.sdo == none) == (s.hp.select == .released))
    && (s.hp.bits == [] || s.pins.sdo == some ((byteBits s.hp.trans.outByte).take s.hp.bits.length))

theorem sdoLaw_of_check {s : State} (h : sdoCheck s = true) : SdoLaw s := by
  simp only [sdoCheck, Bool.and_eq_true] at h
  refine ⟨?_, fun hb => by simpa [hb] using h.2⟩
  have h1 := h.1
  rw [beq_iff_eq, Bool.eq_iff_iff] at h1
  simpa using h1

/-- `ReceiverLaw`. -/
def receiverCheck : Receiver → Bool
  | .waiting => true
  | .collecting bytes => decide (1 ≤ bytes.length) && decide (bytes.length ≤ 4)

theorem receiverLaw_of_check {r : Receiver} (h : receiverCheck r = true) : ReceiverLaw r := by
  cases r <;> simp_all [receiverCheck, ReceiverLaw]

/-- `State.Inv`, clause by clause. -/
def State.lawful (s : State) : Bool :=
  stackCheck s.rgt.slots s.rgt.stack && allSlots (fun i => slotCheck (slotAt s.rgt.slots i)) && stagingCheck s
    && touchCheck s && areaCheck s && rangeCheck s && scanCheck s.se && lineCheck s && portCheck s.hp
    && sdoCheck s && receiverCheck s.pu.receiver && s.pins.note == noteLevel s

/-- A state that the Boolean reading finds lawful meets the laws. -/
theorem State.inv_of_lawful {s : State} (h : s.lawful = true) : s.Inv := by
  simp only [State.lawful, Bool.and_eq_true, beq_iff_eq] at h
  obtain ⟨⟨⟨⟨⟨⟨⟨⟨⟨⟨⟨h1, h2⟩, h3⟩, h4⟩, h5⟩, h6⟩, h7⟩, h8⟩, h9⟩, hs⟩, h10⟩, h11⟩ := h
  exact ⟨stackMatches_of_check h1, fun i => slotLaw_of_check (of_allSlots h2 i), stagingLaw_of_check h3, touchLaw_of_check h4,
    areaLaw_of_check h5, rangeLaw_of_check h6, scanLaw_of_check h7, lineLaw_of_check h8, portLaw_of_check h9, sdoLaw_of_check hs,
    receiverLaw_of_check h10, h11⟩

end Sys2Proof.Machine
end

