-- ==== Sys2Proof/Laws/State.lean ====
section
/-! SUPPORT. The small lemmas of the state: one for each field and each update of State, all true by rfl, so that no proof unfolds a record
update; and the same for the shared endings `judgeNote`, `replyWith`, `endByte` and `ignoreByte`, and for `idlePins`, `shiftOut` and `issueCell`. -/

namespace Sys2Proof.Machine
open Sys2Proof

@[simp] theorem State.setRgt_rgt (s : State) (x : Rgt) : (s.setRgt x).rgt = x := rfl
@[simp] theorem State.setRgt_csu (s : State) (x : Rgt) : (s.setRgt x).csu = s.csu := rfl
@[simp] theorem State.setRgt_se (s : State) (x : Rgt) : (s.setRgt x).se = s.se := rfl
@[simp] theorem State.setRgt_lc (s : State) (x : Rgt) : (s.setRgt x).lc = s.lc := rfl
@[simp] theorem State.setRgt_cou (s : State) (x : Rgt) : (s.setRgt x).cou = s.cou := rfl
@[simp] theorem State.setRgt_pu (s : State) (x : Rgt) : (s.setRgt x).pu = s.pu := rfl
@[simp] theorem State.setRgt_hp (s : State) (x : Rgt) : (s.setRgt x).hp = s.hp := rfl
@[simp] theorem State.setRgt_pins (s : State) (x : Rgt) : (s.setRgt x).pins = s.pins := rfl
@[simp] theorem State.setRgt_panel (s : State) (x : Rgt) : (s.setRgt x).panel = s.panel := rfl
@[simp] theorem State.setRgt_freeReads (s : State) (x : Rgt) : (s.setRgt x).freeReads = s.freeReads := rfl
@[simp] theorem State.setRgt_pending (s : State) (x : Rgt) : (s.setRgt x).pending = s.pending := rfl
@[simp] theorem State.setCsu_rgt (s : State) (x : Csu) : (s.setCsu x).rgt = s.rgt := rfl
@[simp] theorem State.setCsu_csu (s : State) (x : Csu) : (s.setCsu x).csu = x := rfl
@[simp] theorem State.setCsu_se (s : State) (x : Csu) : (s.setCsu x).se = s.se := rfl
@[simp] theorem State.setCsu_lc (s : State) (x : Csu) : (s.setCsu x).lc = s.lc := rfl
@[simp] theorem State.setCsu_cou (s : State) (x : Csu) : (s.setCsu x).cou = s.cou := rfl
@[simp] theorem State.setCsu_pu (s : State) (x : Csu) : (s.setCsu x).pu = s.pu := rfl
@[simp] theorem State.setCsu_hp (s : State) (x : Csu) : (s.setCsu x).hp = s.hp := rfl
@[simp] theorem State.setCsu_pins (s : State) (x : Csu) : (s.setCsu x).pins = s.pins := rfl
@[simp] theorem State.setCsu_panel (s : State) (x : Csu) : (s.setCsu x).panel = s.panel := rfl
@[simp] theorem State.setCsu_freeReads (s : State) (x : Csu) : (s.setCsu x).freeReads = s.freeReads := rfl
@[simp] theorem State.setCsu_pending (s : State) (x : Csu) : (s.setCsu x).pending = s.pending := rfl
@[simp] theorem State.setSe_rgt (s : State) (x : Se) : (s.setSe x).rgt = s.rgt := rfl
@[simp] theorem State.setSe_csu (s : State) (x : Se) : (s.setSe x).csu = s.csu := rfl
@[simp] theorem State.setSe_se (s : State) (x : Se) : (s.setSe x).se = x := rfl
@[simp] theorem State.setSe_lc (s : State) (x : Se) : (s.setSe x).lc = s.lc := rfl
@[simp] theorem State.setSe_cou (s : State) (x : Se) : (s.setSe x).cou = s.cou := rfl
@[simp] theorem State.setSe_pu (s : State) (x : Se) : (s.setSe x).pu = s.pu := rfl
@[simp] theorem State.setSe_hp (s : State) (x : Se) : (s.setSe x).hp = s.hp := rfl
@[simp] theorem State.setSe_pins (s : State) (x : Se) : (s.setSe x).pins = s.pins := rfl
@[simp] theorem State.setSe_panel (s : State) (x : Se) : (s.setSe x).panel = s.panel := rfl
@[simp] theorem State.setSe_freeReads (s : State) (x : Se) : (s.setSe x).freeReads = s.freeReads := rfl
@[simp] theorem State.setSe_pending (s : State) (x : Se) : (s.setSe x).pending = s.pending := rfl
@[simp] theorem State.setLc_rgt (s : State) (x : Lc) : (s.setLc x).rgt = s.rgt := rfl
@[simp] theorem State.setLc_csu (s : State) (x : Lc) : (s.setLc x).csu = s.csu := rfl
@[simp] theorem State.setLc_se (s : State) (x : Lc) : (s.setLc x).se = s.se := rfl
@[simp] theorem State.setLc_lc (s : State) (x : Lc) : (s.setLc x).lc = x := rfl
@[simp] theorem State.setLc_cou (s : State) (x : Lc) : (s.setLc x).cou = s.cou := rfl
@[simp] theorem State.setLc_pu (s : State) (x : Lc) : (s.setLc x).pu = s.pu := rfl
@[simp] theorem State.setLc_hp (s : State) (x : Lc) : (s.setLc x).hp = s.hp := rfl
@[simp] theorem State.setLc_pins (s : State) (x : Lc) : (s.setLc x).pins = s.pins := rfl
@[simp] theorem State.setLc_panel (s : State) (x : Lc) : (s.setLc x).panel = s.panel := rfl
@[simp] theorem State.setLc_freeReads (s : State) (x : Lc) : (s.setLc x).freeReads = s.freeReads := rfl
@[simp] theorem State.setLc_pending (s : State) (x : Lc) : (s.setLc x).pending = s.pending := rfl
@[simp] theorem State.setCou_rgt (s : State) (x : Cou) : (s.setCou x).rgt = s.rgt := rfl
@[simp] theorem State.setCou_csu (s : State) (x : Cou) : (s.setCou x).csu = s.csu := rfl
@[simp] theorem State.setCou_se (s : State) (x : Cou) : (s.setCou x).se = s.se := rfl
@[simp] theorem State.setCou_lc (s : State) (x : Cou) : (s.setCou x).lc = s.lc := rfl
@[simp] theorem State.setCou_cou (s : State) (x : Cou) : (s.setCou x).cou = x := rfl
@[simp] theorem State.setCou_pu (s : State) (x : Cou) : (s.setCou x).pu = s.pu := rfl
@[simp] theorem State.setCou_hp (s : State) (x : Cou) : (s.setCou x).hp = s.hp := rfl
@[simp] theorem State.setCou_pins (s : State) (x : Cou) : (s.setCou x).pins = s.pins := rfl
@[simp] theorem State.setCou_panel (s : State) (x : Cou) : (s.setCou x).panel = s.panel := rfl
@[simp] theorem State.setCou_freeReads (s : State) (x : Cou) : (s.setCou x).freeReads = s.freeReads := rfl
@[simp] theorem State.setCou_pending (s : State) (x : Cou) : (s.setCou x).pending = s.pending := rfl
@[simp] theorem State.setPu_rgt (s : State) (x : Pu) : (s.setPu x).rgt = s.rgt := rfl
@[simp] theorem State.setPu_csu (s : State) (x : Pu) : (s.setPu x).csu = s.csu := rfl
@[simp] theorem State.setPu_se (s : State) (x : Pu) : (s.setPu x).se = s.se := rfl
@[simp] theorem State.setPu_lc (s : State) (x : Pu) : (s.setPu x).lc = s.lc := rfl
@[simp] theorem State.setPu_cou (s : State) (x : Pu) : (s.setPu x).cou = s.cou := rfl
@[simp] theorem State.setPu_pu (s : State) (x : Pu) : (s.setPu x).pu = x := rfl
@[simp] theorem State.setPu_hp (s : State) (x : Pu) : (s.setPu x).hp = s.hp := rfl
@[simp] theorem State.setPu_pins (s : State) (x : Pu) : (s.setPu x).pins = s.pins := rfl
@[simp] theorem State.setPu_panel (s : State) (x : Pu) : (s.setPu x).panel = s.panel := rfl
@[simp] theorem State.setPu_freeReads (s : State) (x : Pu) : (s.setPu x).freeReads = s.freeReads := rfl
@[simp] theorem State.setPu_pending (s : State) (x : Pu) : (s.setPu x).pending = s.pending := rfl
@[simp] theorem State.setHp_rgt (s : State) (x : Hp) : (s.setHp x).rgt = s.rgt := rfl
@[simp] theorem State.setHp_csu (s : State) (x : Hp) : (s.setHp x).csu = s.csu := rfl
@[simp] theorem State.setHp_se (s : State) (x : Hp) : (s.setHp x).se = s.se := rfl
@[simp] theorem State.setHp_lc (s : State) (x : Hp) : (s.setHp x).lc = s.lc := rfl
@[simp] theorem State.setHp_cou (s : State) (x : Hp) : (s.setHp x).cou = s.cou := rfl
@[simp] theorem State.setHp_pu (s : State) (x : Hp) : (s.setHp x).pu = s.pu := rfl
@[simp] theorem State.setHp_hp (s : State) (x : Hp) : (s.setHp x).hp = x := rfl
@[simp] theorem State.setHp_pins (s : State) (x : Hp) : (s.setHp x).pins = s.pins := rfl
@[simp] theorem State.setHp_panel (s : State) (x : Hp) : (s.setHp x).panel = s.panel := rfl
@[simp] theorem State.setHp_freeReads (s : State) (x : Hp) : (s.setHp x).freeReads = s.freeReads := rfl
@[simp] theorem State.setHp_pending (s : State) (x : Hp) : (s.setHp x).pending = s.pending := rfl
@[simp] theorem State.setPins_rgt (s : State) (x : Pins) : (s.setPins x).rgt = s.rgt := rfl
@[simp] theorem State.setPins_csu (s : State) (x : Pins) : (s.setPins x).csu = s.csu := rfl
@[simp] theorem State.setPins_se (s : State) (x : Pins) : (s.setPins x).se = s.se := rfl
@[simp] theorem State.setPins_lc (s : State) (x : Pins) : (s.setPins x).lc = s.lc := rfl
@[simp] theorem State.setPins_cou (s : State) (x : Pins) : (s.setPins x).cou = s.cou := rfl
@[simp] theorem State.setPins_pu (s : State) (x : Pins) : (s.setPins x).pu = s.pu := rfl
@[simp] theorem State.setPins_hp (s : State) (x : Pins) : (s.setPins x).hp = s.hp := rfl
@[simp] theorem State.setPins_pins (s : State) (x : Pins) : (s.setPins x).pins = x := rfl
@[simp] theorem State.setPins_panel (s : State) (x : Pins) : (s.setPins x).panel = s.panel := rfl
@[simp] theorem State.setPins_freeReads (s : State) (x : Pins) : (s.setPins x).freeReads = s.freeReads := rfl
@[simp] theorem State.setPins_pending (s : State) (x : Pins) : (s.setPins x).pending = s.pending := rfl
@[simp] theorem State.setPanel_rgt (s : State) (x : Panel) : (s.setPanel x).rgt = s.rgt := rfl
@[simp] theorem State.setPanel_csu (s : State) (x : Panel) : (s.setPanel x).csu = s.csu := rfl
@[simp] theorem State.setPanel_se (s : State) (x : Panel) : (s.setPanel x).se = s.se := rfl
@[simp] theorem State.setPanel_lc (s : State) (x : Panel) : (s.setPanel x).lc = s.lc := rfl
@[simp] theorem State.setPanel_cou (s : State) (x : Panel) : (s.setPanel x).cou = s.cou := rfl
@[simp] theorem State.setPanel_pu (s : State) (x : Panel) : (s.setPanel x).pu = s.pu := rfl
@[simp] theorem State.setPanel_hp (s : State) (x : Panel) : (s.setPanel x).hp = s.hp := rfl
@[simp] theorem State.setPanel_pins (s : State) (x : Panel) : (s.setPanel x).pins = s.pins := rfl
@[simp] theorem State.setPanel_panel (s : State) (x : Panel) : (s.setPanel x).panel = x := rfl
@[simp] theorem State.setPanel_freeReads (s : State) (x : Panel) : (s.setPanel x).freeReads = s.freeReads := rfl
@[simp] theorem State.setPanel_pending (s : State) (x : Panel) : (s.setPanel x).pending = s.pending := rfl
@[simp] theorem State.setSlots_rgt (s : State) (x : SlotTable) : (s.setSlots x).rgt = { s.rgt with slots := x } := rfl
@[simp] theorem State.setSlots_csu (s : State) (x : SlotTable) : (s.setSlots x).csu = s.csu := rfl
@[simp] theorem State.setSlots_se (s : State) (x : SlotTable) : (s.setSlots x).se = s.se := rfl
@[simp] theorem State.setSlots_lc (s : State) (x : SlotTable) : (s.setSlots x).lc = s.lc := rfl
@[simp] theorem State.setSlots_cou (s : State) (x : SlotTable) : (s.setSlots x).cou = s.cou := rfl
@[simp] theorem State.setSlots_pu (s : State) (x : SlotTable) : (s.setSlots x).pu = s.pu := rfl
@[simp] theorem State.setSlots_hp (s : State) (x : SlotTable) : (s.setSlots x).hp = s.hp := rfl
@[simp] theorem State.setSlots_pins (s : State) (x : SlotTable) : (s.setSlots x).pins = s.pins := rfl
@[simp] theorem State.setSlots_panel (s : State) (x : SlotTable) : (s.setSlots x).panel = s.panel := rfl
@[simp] theorem State.setSlots_freeReads (s : State) (x : SlotTable) : (s.setSlots x).freeReads = s.freeReads := rfl
@[simp] theorem State.setSlots_pending (s : State) (x : SlotTable) : (s.setSlots x).pending = s.pending := rfl
@[simp] theorem State.setFree_rgt (s : State) (n : Nat) : (s.setFree n).rgt = s.rgt := rfl
@[simp] theorem State.setFree_csu (s : State) (n : Nat) : (s.setFree n).csu = s.csu := rfl
@[simp] theorem State.setFree_se (s : State) (n : Nat) : (s.setFree n).se = s.se := rfl
@[simp] theorem State.setFree_lc (s : State) (n : Nat) : (s.setFree n).lc = s.lc := rfl
@[simp] theorem State.setFree_cou (s : State) (n : Nat) : (s.setFree n).cou = s.cou := rfl
@[simp] theorem State.setFree_pu (s : State) (n : Nat) : (s.setFree n).pu = s.pu := rfl
@[simp] theorem State.setFree_hp (s : State) (n : Nat) : (s.setFree n).hp = s.hp := rfl
@[simp] theorem State.setFree_pins (s : State) (n : Nat) : (s.setFree n).pins = s.pins := rfl
@[simp] theorem State.setFree_panel (s : State) (n : Nat) : (s.setFree n).panel = s.panel := rfl
@[simp] theorem State.setFree_freeReads (s : State) (n : Nat) : (s.setFree n).freeReads = n := rfl
@[simp] theorem State.setFree_pending (s : State) (n : Nat) : (s.setFree n).pending = s.pending := rfl
@[simp] theorem State.setPending_rgt (s : State) (q : List Instr) : (s.setPending q).rgt = s.rgt := rfl
@[simp] theorem State.setPending_csu (s : State) (q : List Instr) : (s.setPending q).csu = s.csu := rfl
@[simp] theorem State.setPending_se (s : State) (q : List Instr) : (s.setPending q).se = s.se := rfl
@[simp] theorem State.setPending_lc (s : State) (q : List Instr) : (s.setPending q).lc = s.lc := rfl
@[simp] theorem State.setPending_cou (s : State) (q : List Instr) : (s.setPending q).cou = s.cou := rfl
@[simp] theorem State.setPending_pu (s : State) (q : List Instr) : (s.setPending q).pu = s.pu := rfl
@[simp] theorem State.setPending_hp (s : State) (q : List Instr) : (s.setPending q).hp = s.hp := rfl
@[simp] theorem State.setPending_pins (s : State) (q : List Instr) : (s.setPending q).pins = s.pins := rfl
@[simp] theorem State.setPending_panel (s : State) (q : List Instr) : (s.setPending q).panel = s.panel := rfl
@[simp] theorem State.setPending_freeReads (s : State) (q : List Instr) : (s.setPending q).freeReads = s.freeReads := rfl
@[simp] theorem State.setPending_pending (s : State) (q : List Instr) : (s.setPending q).pending = q := rfl

/-! ### The shared endings -/

@[simp] theorem State.judgeNote_rgt (s : State) : s.judgeNote.rgt = s.rgt := rfl
@[simp] theorem State.judgeNote_csu (s : State) : s.judgeNote.csu = s.csu := rfl
@[simp] theorem State.judgeNote_se (s : State) : s.judgeNote.se = s.se := rfl
@[simp] theorem State.judgeNote_lc (s : State) : s.judgeNote.lc = s.lc := rfl
@[simp] theorem State.judgeNote_cou (s : State) : s.judgeNote.cou = s.cou := rfl
@[simp] theorem State.judgeNote_pu (s : State) : s.judgeNote.pu = s.pu := rfl
@[simp] theorem State.judgeNote_hp (s : State) : s.judgeNote.hp = s.hp := rfl
@[simp] theorem State.judgeNote_pins (s : State) : s.judgeNote.pins = { s.pins with note := noteLevel s } := rfl
@[simp] theorem State.judgeNote_panel (s : State) : s.judgeNote.panel = s.panel := rfl
@[simp] theorem State.judgeNote_freeReads (s : State) : s.judgeNote.freeReads = s.freeReads := rfl
@[simp] theorem State.judgeNote_pending (s : State) : s.judgeNote.pending = s.pending := rfl
@[simp] theorem State.replyWith_rgt (s : State) (code : ReplyCode) (bytes : List Byte) (soft : Bool) :
    (s.replyWith code bytes soft).rgt = s.rgt := rfl
@[simp] theorem State.replyWith_csu (s : State) (code : ReplyCode) (bytes : List Byte) (soft : Bool) :
    (s.replyWith code bytes soft).csu = s.csu := rfl
@[simp] theorem State.replyWith_se (s : State) (code : ReplyCode) (bytes : List Byte) (soft : Bool) :
    (s.replyWith code bytes soft).se = s.se := rfl
@[simp] theorem State.replyWith_lc (s : State) (code : ReplyCode) (bytes : List Byte) (soft : Bool) :
    (s.replyWith code bytes soft).lc = s.lc := rfl
@[simp] theorem State.replyWith_cou (s : State) (code : ReplyCode) (bytes : List Byte) (soft : Bool) :
    (s.replyWith code bytes soft).cou = s.cou := rfl
@[simp] theorem State.replyWith_pu (s : State) (code : ReplyCode) (bytes : List Byte) (soft : Bool) :
    (s.replyWith code bytes soft).pu = s.pu := rfl
@[simp] theorem State.replyWith_hp (s : State) (code : ReplyCode) (bytes : List Byte) (soft : Bool) :
    (s.replyWith code bytes soft).hp = { s.hp with trans := .replying (encodeReply code bytes) 0 soft, bits := [] } := rfl
@[simp] theorem State.replyWith_pins (s : State) (code : ReplyCode) (bytes : List Byte) (soft : Bool) :
    (s.replyWith code bytes soft).pins = { s.pins with sdo := some (byteBits 0) } := rfl
@[simp] theorem State.replyWith_panel (s : State) (code : ReplyCode) (bytes : List Byte) (soft : Bool) :
    (s.replyWith code bytes soft).panel = s.panel := rfl
@[simp] theorem State.replyWith_freeReads (s : State) (code : ReplyCode) (bytes : List Byte) (soft : Bool) :
    (s.replyWith code bytes soft).freeReads = s.freeReads := rfl
@[simp] theorem State.replyWith_pending (s : State) (code : ReplyCode) (bytes : List Byte) (soft : Bool) :
    (s.replyWith code bytes soft).pending = s.pending := rfl
@[simp] theorem State.endByte_rgt (s : State) (trans : TransState) : (s.endByte trans).rgt = s.rgt := rfl
@[simp] theorem State.endByte_csu (s : State) (trans : TransState) : (s.endByte trans).csu = s.csu := rfl
@[simp] theorem State.endByte_se (s : State) (trans : TransState) : (s.endByte trans).se = s.se := rfl
@[simp] theorem State.endByte_lc (s : State) (trans : TransState) : (s.endByte trans).lc = s.lc := rfl
@[simp] theorem State.endByte_cou (s : State) (trans : TransState) : (s.endByte trans).cou = s.cou := rfl
@[simp] theorem State.endByte_pu (s : State) (trans : TransState) : (s.endByte trans).pu = s.pu := rfl
@[simp] theorem State.endByte_panel (s : State) (trans : TransState) : (s.endByte trans).panel = s.panel := rfl
@[simp] theorem State.endByte_freeReads (s : State) (trans : TransState) : (s.endByte trans).freeReads = s.freeReads := rfl
@[simp] theorem State.endByte_pending (s : State) (trans : TransState) : (s.endByte trans).pending = s.pending := rfl
@[simp] theorem State.endByte_hp (s : State) (trans : TransState) :
    (s.endByte trans).hp = { s.hp with trans := trans, bits := [] } := rfl
@[simp] theorem State.endByte_pins (s : State) (trans : TransState) :
    (s.endByte trans).pins = { s.pins with sdo := some (byteBits s.hp.trans.outByte) } := rfl
@[simp] theorem State.ignoreByte_rgt (s : State) : s.ignoreByte.rgt = s.rgt := rfl
@[simp] theorem State.ignoreByte_csu (s : State) : s.ignoreByte.csu = s.csu := rfl
@[simp] theorem State.ignoreByte_se (s : State) : s.ignoreByte.se = s.se := rfl
@[simp] theorem State.ignoreByte_lc (s : State) : s.ignoreByte.lc = s.lc := rfl
@[simp] theorem State.ignoreByte_cou (s : State) : s.ignoreByte.cou = s.cou := rfl
@[simp] theorem State.ignoreByte_pu (s : State) : s.ignoreByte.pu = s.pu := rfl
@[simp] theorem State.ignoreByte_hp (s : State) : s.ignoreByte.hp = { s.hp with bits := [] } := rfl
@[simp] theorem State.ignoreByte_pins (s : State) :
    s.ignoreByte.pins = { s.pins with sdo := some (byteBits s.hp.trans.outByte) } := rfl
@[simp] theorem State.ignoreByte_panel (s : State) : s.ignoreByte.panel = s.panel := rfl
@[simp] theorem State.ignoreByte_freeReads (s : State) : s.ignoreByte.freeReads = s.freeReads := rfl
@[simp] theorem State.ignoreByte_pending (s : State) : s.ignoreByte.pending = s.pending := rfl
@[simp] theorem State.idlePins_rgt (s : State) (dots : List (BitVec 4)) (lsync fsync : Bool) :
    (s.idlePins dots lsync fsync).rgt = s.rgt := rfl
@[simp] theorem State.idlePins_csu (s : State) (dots : List (BitVec 4)) (lsync fsync : Bool) :
    (s.idlePins dots lsync fsync).csu = s.csu := rfl
@[simp] theorem State.idlePins_se (s : State) (dots : List (BitVec 4)) (lsync fsync : Bool) :
    (s.idlePins dots lsync fsync).se = s.se := rfl
@[simp] theorem State.idlePins_lc (s : State) (dots : List (BitVec 4)) (lsync fsync : Bool) :
    (s.idlePins dots lsync fsync).lc = s.lc := rfl
@[simp] theorem State.idlePins_cou (s : State) (dots : List (BitVec 4)) (lsync fsync : Bool) :
    (s.idlePins dots lsync fsync).cou = s.cou := rfl
@[simp] theorem State.idlePins_pu (s : State) (dots : List (BitVec 4)) (lsync fsync : Bool) :
    (s.idlePins dots lsync fsync).pu = s.pu := rfl
@[simp] theorem State.idlePins_hp (s : State) (dots : List (BitVec 4)) (lsync fsync : Bool) :
    (s.idlePins dots lsync fsync).hp = s.hp := rfl
@[simp] theorem State.idlePins_panel (s : State) (dots : List (BitVec 4)) (lsync fsync : Bool) :
    (s.idlePins dots lsync fsync).panel = s.panel := rfl
@[simp] theorem State.idlePins_freeReads (s : State) (dots : List (BitVec 4)) (lsync fsync : Bool) :
    (s.idlePins dots lsync fsync).freeReads = s.freeReads + 1 := rfl
@[simp] theorem State.idlePins_pending (s : State) (dots : List (BitVec 4)) (lsync fsync : Bool) :
    (s.idlePins dots lsync fsync).pending = s.pending := rfl

@[simp] theorem shiftOut_rgt (out : List (BitVec 4)) (s : State) :
    (shiftOut out s).rgt = s.rgt := rfl
@[simp] theorem shiftOut_csu (out : List (BitVec 4)) (s : State) :
    (shiftOut out s).csu = s.csu := rfl
@[simp] theorem shiftOut_se (out : List (BitVec 4)) (s : State) :
    (shiftOut out s).se = s.se := rfl
@[simp] theorem shiftOut_lc (out : List (BitVec 4)) (s : State) :
    (shiftOut out s).lc = s.lc := rfl
@[simp] theorem shiftOut_cou (out : List (BitVec 4)) (s : State) :
    (shiftOut out s).cou = s.cou := rfl
@[simp] theorem shiftOut_pu (out : List (BitVec 4)) (s : State) :
    (shiftOut out s).pu = s.pu := rfl
@[simp] theorem shiftOut_hp (out : List (BitVec 4)) (s : State) :
    (shiftOut out s).hp = s.hp := rfl
@[simp] theorem shiftOut_pins (out : List (BitVec 4)) (s : State) :
    (shiftOut out s).pins = { s.pins with dots := out, dout := out.getLastD s.pins.dout } := rfl
@[simp] theorem shiftOut_panel (out : List (BitVec 4)) (s : State) :
    (shiftOut out s).panel = { s.panel with shifted := s.panel.shifted ++ out } := rfl
@[simp] theorem shiftOut_freeReads (out : List (BitVec 4)) (s : State) :
    (shiftOut out s).freeReads = s.freeReads := rfl
@[simp] theorem shiftOut_pending (out : List (BitVec 4)) (s : State) :
    (shiftOut out s).pending = s.pending := rfl
@[simp] theorem issueCell_rgt (x : Cell) (s : State) : (issueCell x s).rgt = s.rgt := rfl
@[simp] theorem issueCell_csu (x : Cell) (s : State) : (issueCell x s).csu = s.csu := rfl
@[simp] theorem issueCell_se (x : Cell) (s : State) : (issueCell x s).se = s.se := rfl
@[simp] theorem issueCell_lc (x : Cell) (s : State) : (issueCell x s).lc = s.lc := rfl
@[simp] theorem issueCell_cou (x : Cell) (s : State) : (issueCell x s).cou = s.cou := rfl
@[simp] theorem issueCell_pu (x : Cell) (s : State) : (issueCell x s).pu = s.pu := rfl
@[simp] theorem issueCell_hp (x : Cell) (s : State) : (issueCell x s).hp = s.hp := rfl
@[simp] theorem issueCell_pins (x : Cell) (s : State) : (issueCell x s).pins =
    { s.pins with maddr := x.address, rast := x.raster, fetch := x.fetched, lsync := false, fsync := false } := rfl
@[simp] theorem issueCell_panel (x : Cell) (s : State) : (issueCell x s).panel = s.panel := rfl
@[simp] theorem issueCell_freeReads (x : Cell) (s : State) : (issueCell x s).freeReads = s.freeReads := rfl
@[simp] theorem issueCell_pending (x : Cell) (s : State) : (issueCell x s).pending = s.pending := rfl

/-- FETCH is inactive while no cell is issued (R93), after the dots that were still to be shifted. -/
theorem State.idlePins_pins (s : State) (dots : List (BitVec 4)) (lsync fsync : Bool) :
    ∃ (m : Addr) (r : BitVec 5) (d : BitVec 4), (s.idlePins dots lsync fsync).pins =
      { s.pins with maddr := m, rast := r, fetch := false, dout := d, dots := dots, lsync := lsync, fsync := fsync } :=
  ⟨_, _, _, rfl⟩

/-- NOTE's level reads the mask, the fault flags, outcome-unread and the news flags, and nothing else (R178). -/
theorem noteLevel_congr {s t : State} (hslots : t.rgt.slots = s.rgt.slots) (hunread : t.csu.unread = s.csu.unread)
    (hhp : t.hp.mask = s.hp.mask) (hfault : anyFault t = anyFault s) : noteLevel t = noteLevel s := by
  simp only [noteLevel, hslots, hunread, hhp, hfault]

/-- Judging NOTE twice is judging it once. -/
@[simp] theorem State.judgeNote_judgeNote (s : State) : s.judgeNote.judgeNote = s.judgeNote := rfl

/-- A command that ends by `done` gives exactly the judged state. -/
theorem done_eq_next {s t : State} : done s = .next t ↔ t = s.judgeNote := by
  simp only [done, Host.Outcome.next.injEq, eq_comm]

end Sys2Proof.Machine
end

