-- ==== Sys2Proof/Laws/Port.lean ====
section
/-! SUPPORT. What the shared operations of the host port can do: the settled state, the bits of a byte, the judgement of a frame, and
the one way in which a request row comes to its owner. -/

namespace Sys2Proof.Machine
open Sys2Proof

/-! ### The settled state (R180) -/

/-- With no soft reset due the settled state is the state itself. -/
theorem State.settled_of_not_due {s : State} (h : s.hp.softResetDue = false) : s.settled = s := by
  simp [State.settled, h]

/-- With a soft reset due the settled state is the state it leaves. -/
theorem State.settled_of_due {s : State} (h : s.hp.softResetDue = true) : s.settled = softResetEffect s := by
  simp [State.settled, h]

/-- After a soft reset has acted none is due. -/
@[simp] theorem softResetEffect_softResetDue (s : State) : (softResetEffect s).hp.softResetDue = false := rfl

/-- The settled state has no soft reset due. -/
@[simp] theorem State.settled_softResetDue (s : State) : s.settled.hp.softResetDue = false := by
  cases h : s.hp.softResetDue
  · rw [State.settled_of_not_due h, h]
  · rw [State.settled_of_due h, softResetEffect_softResetDue]

/-- Settling twice is settling once. -/
@[simp] theorem State.settled_settled (s : State) : s.settled.settled = s.settled :=
  State.settled_of_not_due s.settled_softResetDue

/-! ### Bits and bytes (R165) -/

/-- A byte crosses the port in eight bits. -/
@[simp] theorem byteBits_length (b : Byte) : (byteBits b).length = 8 := rfl

/-- The bits of a byte make that byte. -/
@[simp] theorem readByte_byteBits : ∀ b : Byte, readByte (byteBits b) = b := by decide +kernel

/-- Eight bits are those of the byte they make. -/
theorem byteBits_readByte {bits : List Bool} (h : bits.length = 8) : byteBits (readByte bits) = bits := by
  match bits, h with
  | [a, b, c, d, e, f, g, i], _ =>
    revert a b c d e f g i
    decide +kernel

/-- While SELECT is high HP ignores SCLK and SDI (R165). -/
theorem State.clock_of_released {s : State} (h : s.hp.select = .released) (sdi : SdiBits)
    (event : Byte → Host.Outcome State Fault Refusal) : s.clock sdi event = done s := by
  simp [State.clock, h]

/-- While RESET is held HP ignores SCLK and SDI, and SDO carries 0 (R183). -/
theorem State.clock_of_held {s : State} (h : s.hp.select = .asserted) (hr : s.hp.resetLine = .asserted) (sdi : SdiBits)
    (event : Byte → Host.Outcome State Fault Refusal) :
    s.clock sdi event = done (s.setPins { s.pins with sdo := some (List.replicate sdi.length false) }) := by
  simp [State.clock, h, hr]

/-- Fewer than eight bits are held, and no event comes about (R165). -/
theorem State.clock_of_partial {s : State} {sdi : SdiBits} (h : s.hp.select = .asserted) (hr : s.hp.resetLine = .released)
    (hn : (s.hp.bits ++ sdi).length < 8) (event : Byte → Host.Outcome State Fault Refusal) :
    s.clock sdi event = done ((s.setHp { s.hp with bits := s.hp.bits ++ sdi }).setPins
      { s.pins with sdo := some ((byteBits s.hp.trans.outByte).take (s.hp.bits ++ sdi).length) }) := by
  unfold State.clock
  rw [if_neg (by simp [h]), if_neg (by simp [hr])]
  exact if_pos hn

/-- With its eighth bit the event of a byte comes about (R165). -/
theorem State.clock_of_clocked {b : Byte} {sdi : SdiBits} {s : State} (h : Clocked b sdi s)
    (event : Byte → Host.Outcome State Fault Refusal) : s.clock sdi event = event b := by
  obtain ⟨hs, hr, hb⟩ := h
  simp [State.clock, hs, hr, hb]

/-- What is left of the byte in progress completes a byte, while SELECT is low and RESET is released. -/
theorem State.clocked_restOfByte {s : State} (h : s.hp.select = .asserted) (hr : s.hp.resetLine = .released)
    (hn : s.hp.bits.length ≤ 8) : Clocked (readByte (s.hp.bits ++ s.restOfByte)) s.restOfByte s := by
  refine ⟨h, hr, (byteBits_readByte ?_).symm⟩
  simp only [State.restOfByte, List.length_append, List.length_replicate]
  omega

/-- Everything the clocking of the port can do: nothing while SELECT is high; no more than the levels of SDO while RESET is held; the
bits held, short of eight; and the byte's event at the eighth. -/
theorem State.clock_next {s t : State} {sdi : SdiBits} {event : Byte → Host.Outcome State Fault Refusal}
    (h : s.clock sdi event = .next t) :
    (s.hp.select = .released ∧ t = s.judgeNote)
      ∨ (s.hp.select = .asserted ∧ s.hp.resetLine = .asserted
        ∧ t = (s.setPins { s.pins with sdo := some (List.replicate sdi.length false) }).judgeNote)
      ∨ (s.hp.select = .asserted ∧ s.hp.resetLine = .released ∧ (s.hp.bits ++ sdi).length < 8
        ∧ t = ((s.setHp { s.hp with bits := s.hp.bits ++ sdi }).setPins
          { s.pins with sdo := some ((byteBits s.hp.trans.outByte).take (s.hp.bits ++ sdi).length) }).judgeNote)
      ∨ ∃ b, Clocked b sdi s ∧ event b = .next t := by
  cases hs : s.hp.select
  · cases hr : s.hp.resetLine
    · rw [State.clock_of_held hs hr] at h
      exact .inr (.inl ⟨rfl, rfl, done_eq_next.1 h⟩)
    · by_cases hn : (s.hp.bits ++ sdi).length < 8
      · rw [State.clock_of_partial hs hr hn] at h
        exact .inr (.inr (.inl ⟨rfl, rfl, hn, done_eq_next.1 h⟩))
      · by_cases h8 : (s.hp.bits ++ sdi).length = 8
        · have hc : Clocked (readByte (s.hp.bits ++ sdi)) sdi s := ⟨hs, hr, (byteBits_readByte h8).symm⟩
          rw [State.clock_of_clocked hc] at h
          exact .inr (.inr (.inr ⟨_, hc, h⟩))
        · unfold State.clock at h
          rw [if_neg (by simp [hs]), if_neg (by simp [hr])] at h
          simp only [hn, h8, if_false] at h
          cases h
  · rw [State.clock_of_released hs] at h
    exact .inl ⟨rfl, done_eq_next.1 h⟩

/-! ### Codes and frames (R169, R185) -/

/-- A request's code names that request (R185). -/
@[simp] theorem RequestKind.ofCode_code (k : RequestKind) : RequestKind.ofCode k.code = some k := by
  cases k <;> decide

/-- A kind byte names a request exactly when it is that request's code (R185). -/
theorem RequestKind.ofCode_eq_some {b : Byte} {k : RequestKind} : RequestKind.ofCode b = some k ↔ k.code = b := by
  constructor
  · intro h
    have := List.find?_some h
    simpa using this
  · rintro rfl
    exact RequestKind.ofCode_code k

/-- A kind byte names no request exactly when it is no request's code (R169, check 2). -/
theorem RequestKind.ofCode_eq_none {b : Byte} : RequestKind.ofCode b = none ↔ ∀ k : RequestKind, k.code ≠ b := by
  rw [Option.eq_none_iff_forall_ne_some]
  exact forall_congr' fun k => not_congr RequestKind.ofCode_eq_some

/-- Every request's parameter length fits its length byte (R166: from 0 to 40). -/
theorem RequestKind.paramLength_le (k : RequestKind) : k.paramLength ≤ 40 := by
  cases k <;> decide

/-- Two requests have one code only if they are one request (R185). -/
theorem RequestKind.code_injective {k k' : RequestKind} (h : k.code = k'.code) : k = k' := by
  have := congrArg RequestKind.ofCode h
  simpa using this

/-- A frame stands at its check byte exactly when kind, length and as many parameters as it says have arrived (R169). -/
theorem Frame.atCheckByte_iff {f : Frame} :
    f.atCheckByte = true ↔ ∃ kind n, f.kind = some kind ∧ f.length = some n ∧ f.params.length = n.toNat := by
  rcases f with ⟨_ | kind, _ | n, params, crc⟩ <;> simp [Frame.atCheckByte]

/-- The judgement of a frame, check by check (R169). -/
theorem Frame.judge_eq {f : Frame} {kind n check : Byte} (hk : f.kind = some kind) (hn : f.length = some n) :
    f.judge check =
      if crcByte f.crc check ≠ 0 then some .check
      else match RequestKind.ofCode kind with
        | none => some .unknown
        | some k => if n.toNat = k.paramLength then none else some .length := by
  simp only [Frame.judge, hk, hn, Option.getD_some] <;> rfl

/-! ### The request rows -/

/-- A request that is presented is one event at its owner, whose answer goes into the reply (R170). -/
theorem takeRequest_of_presented {k : RequestKind} {p : List Byte} {sdi : SdiBits} {s : State}
    (owner : List Byte → State → Answer) (h : Presented k p sdi s) :
    takeRequest k sdi owner s.settled =
      done ((owner p s).state.replyWith (owner p s).code (owner p s).bytes (k == .softReset)) := by
  obtain ⟨hdue, hlen, crc, check, htrans, hclk, hcrc⟩ := h
  have hle := k.paramLength_le
  have hnat : (BitVec.ofNat 8 k.paramLength).toNat = k.paramLength := by
    rw [BitVec.toNat_ofNat]; omega
  rw [State.settled_of_not_due hdue, takeRequest, State.clock_of_clocked hclk]
  simp only [htrans, Frame.atCheckByte, hlen, hnat, beq_self_eq_true, if_true,
    Frame.judge, Option.getD_some, hcrc, ne_eq, not_true_eq_false, if_false, RequestKind.ofCode_code]

/-- Everything the whole check byte of a request row can do: HP answers with a framing fault, or as its owner says, or ignores a byte
outside a request; and otherwise the row is refused by name. The clocking itself is `State.clock_next`. -/
theorem takeRequest_next {k : RequestKind} {check : Byte} {sdi : SdiBits} {owner : List Byte → State → Answer} {s t : State}
    (hclk : Clocked check sdi s) (h : takeRequest k sdi owner s = .next t) :
    (∃ f e, s.hp.trans = .receiving f ∧ f.kind = some k.code ∧ f.judge check = some e ∧ t = (s.faultReply e).judgeNote)
      ∨ (∃ f, s.hp.trans = .receiving f ∧ f.kind = some k.code ∧ f.judge check = none
        ∧ t = ((owner f.params s).state.replyWith (owner f.params s).code (owner f.params s).bytes
          (k == .softReset)).judgeNote)
      ∨ ((s.hp.trans = .idle ∨ s.hp.trans = .draining ∨ s.hp.trans = .held) ∧ t = s.ignoreByte.judgeNote) := by
  rw [takeRequest, State.clock_of_clocked hclk] at h
  split at h
  · rename_i f hf
    split at h
    · split at h
      · rename_i hk
        split at h
        · rename_i e he
          exact .inl ⟨f, e, hf, hk, he, done_eq_next.1 h⟩
        · rename_i he
          exact .inr (.inl ⟨f, hf, hk, he, done_eq_next.1 h⟩)
      · cases h
    · cases h
  · cases h
  · rename_i hf; exact .inr (.inr ⟨.inl hf, done_eq_next.1 h⟩)
  · rename_i hf; exact .inr (.inr ⟨.inr (.inl hf), done_eq_next.1 h⟩)
  · rename_i hf; exact .inr (.inr ⟨.inr (.inr hf), done_eq_next.1 h⟩)

/-! ### The CRC-8 (R168) -/

/-- The CRC-8 of a message with one more byte. -/
theorem crc8_append_singleton (bytes : List Byte) (b : Byte) : crc8 (bytes ++ [b]) = crcByte (crc8 bytes) b := by
  simp only [crc8, List.foldl_append, List.foldl_cons, List.foldl_nil]

/-- The register run over its own value is 0, and over no other byte when it stands at 0. -/
theorem crcByte_self : ∀ reg : Byte, crcByte reg reg = 0 ∧ (crcByte 0 reg = 0 → reg = 0) := by decide +kernel

end Sys2Proof.Machine
end

