-- ==== Sys2Proof/Laws/Line.lean ====
section
/-! SUPPORT. What the cell output and the pointer's receiver can do: the groups of a cell, what COU holds and has left to shift, CELL_ISSUE
and LINE_END in one equation each, the levels of a character on PRX, and the rows of the pointer's characters and reports. -/

namespace Sys2Proof.Machine
open Sys2Proof

/-! ### Cells and groups (R119, R128, R132) -/

/-- A cell has as many dots as the cell width says (R120). -/
@[simp] theorem resolve_length (width : Nat) (frame : BitVec 6) (x : Cell) : (resolve width frame x).length = width := by
  unfold resolve baseDots patternDots
  rw [List.length_map]
  repeat' split
  all_goals simp

/-- Four dots leave in each group (R132). -/
theorem groupDots_length : ∀ dots : List Bool, (groupDots dots).length = dots.length / 4
  | [] => rfl
  | [_] => by simp [groupDots]
  | [_, _] => by simp [groupDots]
  | [_, _, _] => by simp [groupDots]
  | a :: b :: c :: d :: rest => by
    rw [groupDots, List.length_cons, groupDots_length rest]
    simp only [List.length_cons]
    omega

/-- How many groups a cell has: two at width 8, four at width 16 (R132). -/
@[simp] theorem State.cellGroups_length (s : State) (x : Cell) : (s.cellGroups x).length = s.se.timing.cellWidth / 4 := by
  rw [State.cellGroups, groupDots_length, resolve_length]

/-- While COU holds no cell nothing is left to shift (R119). -/
theorem State.groupsLeft_of_none {s : State} (h : s.cou.cell = none) : s.groupsLeft = [] := by
  simp [State.groupsLeft, h]

/-- What is left of the cell that COU holds (R119). -/
theorem State.groupsLeft_of_some {s : State} {x : Cell} (h : s.cou.cell = some x) :
    s.groupsLeft = (s.cellGroups x).drop s.cou.shifted := by
  simp [State.groupsLeft, h]

/-- What COU holds after so many groups of a cell: the cell while a group is left, and no cell otherwise (R119). -/
theorem couAfter_cases (s : State) (x : Cell) (n : Nat) :
    n < s.se.timing.cellWidth / 4 ∧ couAfter s x n = ⟨some x, n⟩
      ∨ s.se.timing.cellWidth / 4 ≤ n ∧ couAfter s x n = ⟨none, 0⟩ := by
  unfold couAfter
  rw [State.cellGroups_length]
  split
  · exact .inl ⟨‹_›, rfl⟩
  · exact .inr ⟨by omega, rfl⟩

/-- Everything a CELL_ISSUE that gives a next state can do, with no soft reset due: nothing while STOPPED, or the next column's cell
issued, shifted as far as the row says and held if groups of it are left (R85, R104, R119, R132). -/
theorem execCellIssue_cases {data : CellData} {n : Nat} {s t : State} (hd : s.hp.softResetDue = false)
    (h : execCellIssue data n s = .next t) :
    s.se.scan = .stopped ∧ t = s.judgeNote
      ∨ ∃ y, s.se.scan ≠ .stopped ∧ s.se.place = .inLine y ∧ s.lc.column < s.se.timing.displayedColumns
        ∧ t = (((shiftOut (s.groupsLeft
              ++ (s.cellGroups (cellOf s (spanOwner s.lc.spans s.lc.column) s.lc.column y data.pdata data.adata)).take n)
            (issueCell (cellOf s (spanOwner s.lc.spans s.lc.column) s.lc.column y data.pdata data.adata) s)).setCou
            (couAfter s (cellOf s (spanOwner s.lc.spans s.lc.column) s.lc.column y data.pdata data.adata) n)).setLc
            { s.lc with column := s.lc.column + 1 }).judgeNote := by
  simp only [execCellIssue, State.settled_of_not_due hd] at h
  split at h
  · exact .inl ⟨‹_›, done_eq_next.1 h⟩
  · split at h
    · rename_i y hy
      split at h
      · exact .inr ⟨y, ‹_›, hy, ‹_›, done_eq_next.1 h⟩
      · cases h
    all_goals cases h

/-- Everything a LINE_END that gives a next state can do, with no soft reset due: nothing while STOPPED, or the last groups shifted, the
line latched, and LC and COU emptied (R85, R90, R132). -/
theorem execLineEnd_cases {s t : State} (hd : s.hp.softResetDue = false) (h : execLineEnd s = .next t) :
    s.se.scan = .stopped ∧ t = s.judgeNote
      ∨ ∃ y, s.se.scan ≠ .stopped ∧ s.se.place = .inLine y ∧ s.lc.column = s.se.timing.displayedColumns
        ∧ t = (((((s.setSe { s.se with place := s.se.timing.afterLine y }).setLc ⟨[], 0⟩).setCou ⟨none, 0⟩).setPanel
            ⟨s.panel.shifted ++ s.groupsLeft, s.panel.shifted ++ s.groupsLeft⟩).idlePins s.groupsLeft true false).judgeNote := by
  simp only [execLineEnd, State.settled_of_not_due hd] at h
  split at h
  · exact .inl ⟨‹_›, done_eq_next.1 h⟩
  · split at h
    · rename_i y hy
      split at h
      · exact .inr ⟨y, ‹_›, hy, ‹_›, done_eq_next.1 h⟩
      · cases h
    all_goals cases h

/-! ### Characters on PRX (R188) -/

/-- The levels of a character, one by one: the start bit, the data bits, the marker, the stop bit. -/
theorem PrxChar.getLsbD_bits (ch : PrxChar) (i : Nat) :
    ch.bits.getLsbD i = if i = 0 then false else if i < 9 then ch.data.getLsbD (i - 1) else if i = 9 then ch.marker
      else decide (i = 10) && ch.stop := by
  simp only [PrxChar.bits, BitVec.getLsbD_append, BitVec.getLsbD_ofBool]
  rcases i with _ | _ | _ | _ | _ | _ | _ | _ | _ | _ | _ | i <;> simp [Bool.and_comm]

/-- The levels of a character spell that character. -/
@[simp] theorem readCharacter_bits (ch : PrxChar) : readCharacter ch.bits = some ch := by
  have h : ch.bits.extractLsb' 1 8 = ch.data := by
    apply BitVec.eq_of_getLsbD_eq
    intro i hi
    rw [BitVec.getLsbD_extractLsb', ch.getLsbD_bits, if_neg (by omega), if_pos (by omega), Nat.add_sub_cancel_left]
    simp [hi]
  unfold readCharacter
  rw [h, ch.getLsbD_bits, ch.getLsbD_bits, ch.getLsbD_bits]
  simp

/-- With the line high where a start bit would stand no character arrives. -/
theorem readCharacter_eq_none {line : PrxBits} : readCharacter line = none ↔ line.getLsbD 0 = true := by
  unfold readCharacter
  split <;> simp_all

/-- The rows of a character and of a report change nothing when no character arrives (log entry 3). -/
theorem onReport_of_no_character {line : PrxBits} (h : line.getLsbD 0 = true) (s : State)
    (act : List Byte → Byte → Host.Outcome State Fault Refusal) : onReport line s act = done s := by
  simp [onReport, readCharacter_eq_none.2 h]

/-- A report completes with a character that has its stop bit and no marker, when the receiver holds four bytes (R135). -/
theorem onReport_of_complete {bytes : List Byte} {data : Byte} {s : State} (h : s.pu.receiver = .collecting bytes)
    (h4 : 4 ≤ bytes.length) (act : List Byte → Byte → Host.Outcome State Fault Refusal) :
    onReport (PrxChar.bits ⟨data, false, true⟩) s act = act bytes data := by
  simp [onReport, Receiver.on, h, Nat.not_lt.2 h4]

end Sys2Proof.Machine
end

