-- ==== Sys2Proof/Laws/Requests.lean ====
section
/-! SUPPORT. The request rows as one family: the owner of each request (R170), and what a request row's next state is. -/

namespace Sys2Proof.Machine
open Sys2Proof

/-- The judgement and effect of each request at its owning block (R170). -/
def RequestKind.owner : RequestKind → List Byte → State → Answer
  | .create => createRequest
  | .amend => amendRequest
  | .retire => retireRequest
  | .restack => restackRequest
  | .lock => lockRequest
  | .publish => publishRequest
  | .withdraw => withdrawRequest
  | .discard => discardRequest
  | .readOutcome => readOutcomeRequest
  | .readRegion => readRegionRequest
  | .readStack => readStackRequest
  | .guardOn => guardOnRequest
  | .guardOff => guardOffRequest
  | .setTiming => setTimingRequest
  | .readTiming => readTimingRequest
  | .startScan => startScanRequest
  | .stopScan => stopScanRequest
  | .pointerSettings => pointerSettingsRequest
  | .readTouch => readTouchRequest
  | .probe => probeRequest
  | .readStatus => readStatusRequest
  | .setNoteMask => setNoteMaskRequest
  | .softReset => softResetRequest

/-- Every request row is `takeRequest` with its owner. -/
theorem exec_row (k : RequestKind) (sdi : SdiBits) (s : State) :
    exec (k.row sdi) s = takeRequest k sdi k.owner s.settled := by
  cases k <;> rfl

/-- A presented request row answers as its owner says. -/
theorem exec_row_of_presented {k : RequestKind} {p : List Byte} {sdi : SdiBits} {s : State} (h : Presented k p sdi s) :
    exec (k.row sdi) s = .next (((k.owner p s).state.replyWith (k.owner p s).code (k.owner p s).bytes
      (k == .softReset)).judgeNote) := by
  rw [exec_row, takeRequest_of_presented _ h]; rfl

/-- A presented request whose owner answers with `a`, but for SOFT RESET. -/
theorem exec_row_answered {k : RequestKind} {p : List Byte} {sdi : SdiBits} {s : State} {a : Answer}
    (h : Presented k p sdi s) (hk : k ≠ .softReset) (ha : k.owner p s = a) :
    exec (k.row sdi) s = .next (a.state.answered a.code a.bytes) := by
  have hb : (k == .softReset) = false := by simpa using hk
  rw [exec_row_of_presented h, ha, hb]; rfl

/-- A presented request that its owner refuses, but for SOFT RESET. -/
theorem exec_row_refused {k : RequestKind} {p : List Byte} {sdi : SdiBits} {s : State} {code : ReplyCode}
    (h : Presented k p sdi s) (hk : k ≠ .softReset) (ha : k.owner p s = .refuse s code) :
    exec (k.row sdi) s = .next (s.refusedWith code) :=
  exec_row_answered h hk ha

/-- The staging list's checks 1 and 2 pass exactly when the set is OPEN with fewer than 16 records (R44). -/
theorem listFault_eq_none {c : Csu} : listFault c = none ↔ c.setState ≠ .pending ∧ c.changes.length < 16 := by
  unfold listFault
  split
  · simp_all
  · split <;> simp_all

/-- The lowest FREE slot is FREE, with none below it (R3). -/
theorem lowestFree_eq_some {t : SlotTable} {i : Fin 32} :
    lowestFree t = some i ↔ (slotAt t i).state = .free ∧ ∀ j : Fin 32, j < i → (slotAt t j).state ≠ .free := by
  unfold lowestFree
  rw [List.find?_eq_some_iff_getElem]
  constructor
  · rintro ⟨h, n, hn, hi, hall⟩
    have hin : i.val = n := by
      rw [← hi]; simp
    refine ⟨by simpa using h, fun j hj => ?_⟩
    have := hall j.val (by rw [← hin]; exact hj)
    simpa using this
  · rintro ⟨h, hall⟩
    refine ⟨by simpa using h, i.val, by simp, by simp, fun j hj => ?_⟩
    have := hall ⟨j, lt_trans hj i.isLt⟩ hj
    simpa using this

/-- No slot is FREE exactly when there is no lowest one. -/
theorem lowestFree_eq_none {t : SlotTable} : lowestFree t = none ↔ ∀ i : Fin 32, (slotAt t i).state ≠ .free := by
  simp [lowestFree]

end Sys2Proof.Machine
end

