-- ==== Sys2Proof/Laws/Table.lean ====
section
/-! SUPPORT. What the shared operations over the region table can do: one lemma for each operation on the slots, for the reservations'
release, for the cancellation of a capture, for PU's notice, tick and reset, and for the hit test's reading of the state. -/

namespace Sys2Proof.Machine
open Sys2Proof

/-! ### Slots -/

/-- A table is known by its slots. -/
theorem slotTable_ext {t u : SlotTable} (h : ∀ i : Fin 32, slotAt t i = slotAt u i) : t = u := by
  apply Vector.ext
  intro i hi
  exact h ⟨i, hi⟩

/-- A tabulated table holds the function's slots. -/
@[simp] theorem slotAt_tabulate (f : Fin 32 → Slot) (i : Fin 32) : slotAt (tabulate f) i = f i := by
  show (tabulate f)[i.val] = f i
  simp only [tabulate, Vector.getElem_mk, List.getElem_toArray, List.getElem_ofFn, Fin.eta]

/-- Replacing a slot changes that slot alone. -/
theorem slotAt_putSlot (t : SlotTable) (i j : Fin 32) (x : Slot) :
    slotAt (putSlot t i x) j = if j = i then x else slotAt t j := by
  show (t.set i.val x)[j.val] = _
  rw [Vector.getElem_set]
  by_cases h : j = i
  · simp [h]
  · have : i.val ≠ j.val := fun e => h (Fin.ext e.symm)
    simp [h, this, slotAt]

/-- The replaced slot. -/
@[simp] theorem slotAt_putSlot_self (t : SlotTable) (i : Fin 32) (x : Slot) : slotAt (putSlot t i x) i = x := by
  rw [slotAt_putSlot, if_pos rfl]

/-- The other slots. -/
theorem slotAt_putSlot_of_ne {t : SlotTable} {i j : Fin 32} {x : Slot} (h : j ≠ i) :
    slotAt (putSlot t i x) j = slotAt t j := by
  rw [slotAt_putSlot, if_neg h]

/-- Every slot at power-on is FREE at generation 0 with the cleared record (R24). -/
@[simp] theorem slotAt_powerOn (guard : LineLevel) (i : Fin 32) : slotAt (Rgt.powerOn guard).slots i = Slot.cleared 0 := by
  show (Vector.replicate 32 (Slot.cleared 0))[i.val] = _
  rw [Vector.getElem_replicate]

/-- A change of one touch part changes nothing of any slot but that slot's touch part. -/
theorem slotAt_mapTouch (t : SlotTable) (i j : Fin 32) (f : TouchPart → TouchPart) :
    slotAt (mapTouch t i f) j =
      if j = i then { slotAt t j with touch := (slotAt t j).touch.map f } else slotAt t j := by
  rw [mapTouch, slotAt_putSlot]
  by_cases h : j = i
  · subst h; simp
  · simp [h]

/-- Touch parts apart, a change of one touch part changes no slot. -/
@[simp] theorem slotAt_mapTouch_state (t : SlotTable) (i j : Fin 32) (f : TouchPart → TouchPart) :
    (slotAt (mapTouch t i f) j).state = (slotAt t j).state := by
  rw [slotAt_mapTouch]; split <;> rfl

/-- Touch parts apart, a change of one touch part changes no slot. -/
@[simp] theorem slotAt_mapTouch_gen (t : SlotTable) (i j : Fin 32) (f : TouchPart → TouchPart) :
    (slotAt (mapTouch t i f) j).gen = (slotAt t j).gen := by
  rw [slotAt_mapTouch]; split <;> rfl

/-- Touch parts apart, a change of one touch part changes no slot. -/
@[simp] theorem slotAt_mapTouch_record (t : SlotTable) (i j : Fin 32) (f : TouchPart → TouchPart) :
    (slotAt (mapTouch t i f) j).record = (slotAt t j).record := by
  rw [slotAt_mapTouch]; split <;> rfl

/-- R49: a release of a list's reservations frees each RESERVED slot of its CREATEs, and leaves every other slot. -/
@[simp] theorem slotAt_releaseReservations (t : SlotTable) (changes : List Change) (i : Fin 32) :
    slotAt (releaseReservations t changes) i =
      if (slotAt t i).state = .reserved ∧ changes.any (·.createsSlot i) then (slotAt t i).freed else slotAt t i := by
  rw [releaseReservations, slotAt_tabulate]

/-- A freed slot (R2). -/
@[simp] theorem Slot.freed_state (x : Slot) : x.freed.state = .free := rfl
/-- A freed slot's generation is advanced (R2). -/
@[simp] theorem Slot.freed_gen (x : Slot) : x.freed.gen = x.gen + 1 := rfl
/-- A freed slot's record is cleared (R2). -/
@[simp] theorem Slot.freed_record (x : Slot) : x.freed.record = RegionRecord.cleared := rfl
/-- A freed slot has no touch part (R1). -/
@[simp] theorem Slot.freed_touch (x : Slot) : x.freed.touch = none := rfl

/-! ### PU's shared operations -/

/-- A cancellation with no capture does nothing (R149). -/
theorem cancelCapture_of_not_captured {cause : CancelCause} {s : State} (h : ∀ g, s.pu.contact ≠ .captured g) :
    cancelCapture cause s = s := by
  unfold cancelCapture
  split
  · rename_i g hg; exact absurd hg (h g)
  · rfl

/-- A cancellation of a capture (R149): the touch part, the contact and the cause, and nothing else. -/
theorem cancelCapture_of_captured {cause : CancelCause} {s : State} {h : Handle} (hc : s.pu.contact = .captured h) :
    cancelCapture cause s =
      (s.setSlots (mapTouch s.rgt.slots h.slot (·.cancelled cause.leavesNews))).setPu
        { s.pu with contact := cause.contactAfter, lastCause := some cause } := by
  unfold cancelCapture
  rw [hc]

/-- Everything a cancellation can do: nothing, or the one change of a capture's cancellation. -/
theorem cancelCapture_cases (cause : CancelCause) (s : State) :
    cancelCapture cause s = s ∧ (∀ g, s.pu.contact ≠ .captured g)
      ∨ ∃ h, s.pu.contact = .captured h ∧ cancelCapture cause s =
        (s.setSlots (mapTouch s.rgt.slots h.slot (·.cancelled cause.leavesNews))).setPu
          { s.pu with contact := cause.contactAfter, lastCause := some cause } := by
  rcases hc : s.pu.contact with _ | h | _
  · exact .inl ⟨cancelCapture_of_not_captured (by simp [hc]), by simp⟩
  · exact .inr ⟨h, rfl, cancelCapture_of_captured hc⟩
  · exact .inl ⟨cancelCapture_of_not_captured (by simp [hc]), by simp⟩

/-- Everything a commit notice can do: nothing, or the cancellation of the captured region with its first cause (R22, R150). -/
theorem takeNotice_cases (dropped : List (Fin 32)) (s : State) :
    takeNotice dropped s = s
      ∨ ∃ h cause, s.pu.contact = .captured h ∧ noticeCause s.rgt.slots dropped h = some cause
        ∧ takeNotice dropped s = cancelCapture cause s := by
  unfold takeNotice
  split
  · rename_i h hc
    split
    · rename_i cause hn; exact .inr ⟨h, cause, hc, hn, rfl⟩
    · exact .inl rfl
  · exact .inl rfl

/-- A tick of an UP contact only takes the frame start (R146). -/
theorem takeTick_of_up {s : State} (h : s.pu.contact = .up) : takeTick s = s.setSe { s.se with tickOwed := false } := by
  simp [takeTick, tickSilence, tickTimesOut, tickFallback, h]

/-- A tick of an unclaimed contact advances the silence count, and at the timeout makes the contact UP (R146). -/
theorem takeTick_of_unclaimed {s : State} (h : s.pu.contact = .unclaimed) :
    takeTick s = (s.setPu (if s.pu.timeout ≤ s.pu.silence + 1 then { s.pu with contact := .up, silence := 0 }
      else { s.pu with silence := s.pu.silence + 1 })).setSe { s.se with tickOwed := false } := by
  by_cases ht : s.pu.timeout ≤ s.pu.silence + 1
  · simp [takeTick, tickSilence, tickTimesOut, tickFallback, h, ht,
      cancelCapture_of_not_captured (cause := .timeout) (s := s) (by simp [h])]
  · simp [takeTick, tickSilence, tickTimesOut, tickFallback, h, ht]

/-- A tick of a captured contact (R146, R148): the timeout first, then the fallback. -/
theorem takeTick_of_captured {s : State} {h : Handle} (hc : s.pu.contact = .captured h) :
    takeTick s =
      (if s.pu.timeout ≤ s.pu.silence + 1 then
        (s.setSlots (mapTouch s.rgt.slots h.slot (·.cancelled true))).setPu
          { s.pu with contact := .up, silence := 0, lastCause := some .timeout }
      else if s.se.fallbackEffective = true ∧ classOf s.rgt.slots h = .ordinary then
        (s.setSlots (mapTouch s.rgt.slots h.slot (·.cancelled true))).setPu
          { s.pu with contact := .unclaimed, silence := s.pu.silence + 1, lastCause := some .fallback }
      else s.setPu { s.pu with silence := s.pu.silence + 1 }).setSe { s.se with tickOwed := false } := by
  by_cases ht : s.pu.timeout ≤ s.pu.silence + 1
  · simp [takeTick, tickSilence, tickTimesOut, tickFallback, hc, ht, cancelCapture_of_captured hc,
      CancelCause.contactAfter, CancelCause.leavesNews]
    rfl
  · by_cases hf : s.se.fallbackEffective = true ∧ classOf s.rgt.slots h = .ordinary
    · simp [takeTick, tickSilence, tickTimesOut, tickFallback, hc, ht, hf, cancelCapture,
        CancelCause.contactAfter, CancelCause.leavesNews]
      rfl
    · simp [takeTick, tickSilence, tickTimesOut, tickFallback, hc, ht, hf]

/-! ### The hit test reads the table, the flag and the timing set only -/

/-- An entry's rectangle is read from the slots and the timing set. -/
theorem Entry.contains_congr {s t : State} (hslots : t.rgt.slots = s.rgt.slots) (htiming : t.se.timing = s.se.timing)
    (x y : Nat) (e : Entry) : e.contains t x y = e.contains s x y := by
  cases e <;> simp [Entry.contains, Entry.rect, hslots, htiming]

/-- An entry's touch mode is read from the slots. -/
theorem Entry.touchMode_congr {s t : State} (hslots : t.rgt.slots = s.rgt.slots) (e : Entry) :
    e.touchMode t = e.touchMode s := by
  cases e <;> simp [Entry.touchMode, hslots]

/-- The effective stacking order is read from the table, the stacking order and the flag (R37). -/
theorem effectiveOrder_congr {s t : State} (hslots : t.rgt.slots = s.rgt.slots) (hstack : t.rgt.stack = s.rgt.stack)
    (hflag : t.se.fallbackEffective = s.se.fallbackEffective) : effectiveOrder t = effectiveOrder s := by
  simp only [effectiveOrder, hslots, hstack, hflag]

/-- The hit test is read from the table, the stacking order, the flag and the timing set (R141). -/
theorem hitTest_congr {s t : State} (hslots : t.rgt.slots = s.rgt.slots) (hstack : t.rgt.stack = s.rgt.stack)
    (hflag : t.se.fallbackEffective = s.se.fallbackEffective) (htiming : t.se.timing = s.se.timing) (p : Point) :
    hitTest t p = hitTest s p := by
  unfold hitTest
  rw [effectiveOrder_congr hslots hstack hflag]
  induction effectiveOrder s with
  | nil => rfl
  | cons e rest ih =>
    simp only [hitWalk, Entry.contains_congr hslots htiming, Entry.touchMode_congr hslots, ih]

/-! ### Apply points -/

/-- Everything an apply point can do: a commit of the working copy that every change has passed on, or an end without a commit whose
outcome names the first change that failed (R55, R58, R59). -/
theorem applySet_cases (s : State) :
    (∃ w, evaluate s.rgt.guardInForce s.se.area s.working s.csu.changes = .passed w ∧ applySet s = commitSet w s)
      ∨ ∃ i code, evaluate s.rgt.guardInForce s.se.area s.working s.csu.changes = .failed i code
        ∧ applySet s = abandonSet (.rejected i code) s := by
  unfold applySet
  split
  · rename_i w hw; exact .inl ⟨w, hw, rfl⟩
  · rename_i i code hf; exact .inr ⟨i, code, hf, rfl⟩

/-- An evaluation that passes has carried out every change, each of which passed on what the earlier ones had left (R55). -/
theorem evaluate_cons (guard : Bool) (area : Option (Nat × Nat)) (w : Working) (c : Change) (rest : List Change) :
    evaluate guard area w (c :: rest) =
      match changeFault guard area w c with
      | some code => .failed c.index code
      | none => evaluate guard area (carryOut w c) rest := rfl

end Sys2Proof.Machine
end

