-- ==== Sys2Proof/WellFormed.lean ====
section
/-! DEFINITION. Which commands are well formed. The operand types admit every value the outside can supply, but for two.
A row in which a byte comes in at the host port brings one to eight levels of SDI, since the ninth would be of the next byte (R165). And
every character on PRX begins with a start bit at low level (R188), and one that the receiver keeps, or that
completes a report, was received with its stop bit (R135). -/

namespace Sys2Proof

/-- The levels of a character (R188): the start bit is low. -/
abbrev PrxBits.starts (line : PrxBits) : Prop := line.getLsbD 0 = false

/-- The character was received with its stop bit (R188): it is high. -/
abbrev PrxBits.stops (line : PrxBits) : Prop := line.getLsbD 10 = true

/-- The levels of SDI belong to one byte (R165). -/
abbrev SdiBits.inByte (sdi : SdiBits) : Prop := 1 ≤ sdi.length ∧ sdi.length ≤ 8

/-- A well-formed command. R165: no row brings more levels of SDI than a byte has. R135: a character received without its stop bit is never kept and completes no report. -/
abbrev Instr.WellFormed (i : Instr) : Prop :=
  match i with
  | .pointerCharacterKept line => line.starts ∧ line.stops
  | .pointerLinkFault line => line.starts
  | .reportDiscarded line => line.starts ∧ line.stops
  | .contact line => line.starts ∧ line.stops
  | .lift line => line.starts ∧ line.stops
  | .framingFault sdi => sdi.inByte
  | .create sdi => sdi.inByte
  | .amend sdi => sdi.inByte
  | .retire sdi => sdi.inByte
  | .restack sdi => sdi.inByte
  | .lock sdi => sdi.inByte
  | .publish sdi => sdi.inByte
  | .withdraw sdi => sdi.inByte
  | .discard sdi => sdi.inByte
  | .readOutcome sdi => sdi.inByte
  | .readRegion sdi => sdi.inByte
  | .readStack sdi => sdi.inByte
  | .guardOn sdi => sdi.inByte
  | .guardOff sdi => sdi.inByte
  | .setTiming sdi => sdi.inByte
  | .readTiming sdi => sdi.inByte
  | .startScan sdi => sdi.inByte
  | .stopScan sdi => sdi.inByte
  | .pointerSettings sdi => sdi.inByte
  | .readTouch sdi => sdi.inByte
  | .probe sdi => sdi.inByte
  | .readStatus sdi => sdi.inByte
  | .setNoteMask sdi => sdi.inByte
  | .softReset sdi => sdi.inByte
  | .requestByteReceived sdi => sdi.inByte
  | _ => True

end Sys2Proof
end

