-- ==== Sys2Proof/Tests/Slice0.lean ====
section
/-! SUPPORT. Tests. First small states and the helpers that build them; then the well-formedness check refusing what it must; then
tests of one step or one operation whose expected values are the spec's worked examples or are worked out by hand from a rule; then,
for every statement with hypotheses, a witness: a concrete state and operands that meet them. -/

namespace Sys2Proof.Tests
open Sys2Proof Sys2Proof.Machine

-- The kernel evaluates these theorems one after another: side by side they take one thread, with its stack, each.
set_option Elab.async false

/-! ### Small states -/

/-- The next state, if there is one. -/
def nextOf (o : Host.Outcome State Fault Refusal) : Option State :=
  match o with
  | .next t => some t
  | _ => none

/-- The command answers a next state. -/
def goesOn (o : Host.Outcome State Fault Refusal) : Bool := (nextOf o).isSome

/-- A command that goes on has a next state. -/
theorem next_of_goesOn {o : Host.Outcome State Fault Refusal} (h : goesOn o = true) : ∃ t, o = .next t := by
  cases o <;> simp_all [goesOn, nextOf]

/-- The refusal, if there is one. -/
def refusalOf (o : Host.Outcome State Fault Refusal) : Option Refusal :=
  match o with
  | .refused r => some r
  | _ => none

/-- The reply in the port after a command: code and reply bytes, without length and check byte. -/
def replyOf (o : Host.Outcome State Fault Refusal) : Option (List Byte) :=
  match nextOf o with
  | some t =>
    match t.hp.trans with
    | .replying (code :: _ :: rest) _ _ => some (code :: rest.dropLast)
    | _ => none
  | none => none

/-- A timing set with every field at the least value R80 admits. -/
def smallTiming : Timing := ⟨8, 12, 8, 10, 8, 0x100000, 8⟩

/-- A visible TEXT record of stride 8, cell height 8 and scroll offset 3 at base 65,536. -/
def textRecord (cls : RegionClass) (locked : Bool) (rect : Rect) (touch : TouchMode) : RegionRecord :=
  ⟨cls, locked, rect, ⟨.text, 65536, 8, 8, 3⟩, ⟨true, false, true⟩, some ⟨65537, 6, 9, .fast⟩, touch⟩

/-- A visible BITMAP record. -/
def bitmapRecord : RegionRecord :=
  ⟨.ordinary, false, ⟨4, 4, 4, 4⟩, ⟨.bitmap, 524288, 8, 1, 0⟩, ⟨true, true, false⟩, none, .block⟩

/-- The table of the tests: slot 0 an ORDINARY region that accepts touch, slot 1 a locked TELLTALE, slot 2 RESERVED, slot 3 a
TELLTALE, slot 4 an ORDINARY bitmap at generation 1; the others FREE. -/
def table (touch : TouchPart) : SlotTable :=
  putSlot (putSlot (putSlot (putSlot (putSlot (Rgt.powerOn .released).slots
    0 ⟨.live, 0, textRecord .ordinary false ⟨0, 0, 4, 4⟩ .accept, some touch⟩)
    1 ⟨.live, 0, textRecord .telltale true ⟨6, 0, 2, 2⟩ .none, none⟩)
    2 ⟨.reserved, 3, textRecord .ordinary false ⟨0, 0, 8, 8⟩ .none, none⟩)
    3 ⟨.live, 0, textRecord .telltale false ⟨5, 0, 2, 2⟩ .none, none⟩)
    4 ⟨.live, 1, bitmapRecord, none⟩

/-- The CREATE record of slot 2. -/
def createTwo : Change := ⟨0, ⟨2, 3⟩, .create (textRecord .ordinary false ⟨0, 0, 8, 8⟩ .none)⟩

/-- A scan engine with the small timing set. -/
def scanAt (scan : ScanState) (place : ScanPlace) (stop : Option StopPlace) (owed fallback : Bool) : Se :=
  ⟨scan, smallTiming, true, 5, .released, fallback, place, stop, owed⟩

/-- A stopped scan. -/
def stopped : Se := scanAt .stopped .outside none false false

/-- An enabled pointer with timeout 3. -/
def pointer (receiver : Receiver) (contact : Contact) (silence : Nat) : Pu :=
  ⟨receiver, true, 3, contact, silence, false, false, none⟩

/-- A pointer that is up. -/
def up : Pu := pointer .waiting .up 0

/-- A port with SELECT low in a transaction. -/
def portIn (trans : TransState) : Hp := ⟨trans, [], false, false, false, false, ⟨true, true, true⟩, false, .asserted, .released⟩

/-- A port with SELECT high. -/
def quiet : Hp := ⟨.idle, [], false, false, false, false, ⟨true, true, true⟩, false, .released, .released⟩

/-- The state of the tests. A captured contact has slot 0 PRESSED; a line in progress has its span list. -/
def demo (setState : SetState) (e : Se) (u : Pu) (p : Hp) : State :=
  let touch : TouchPart := match u.contact with
    | .captured _ => ⟨.pressed, ⟨1, 1⟩, ⟨2, 2⟩, 14, ⟨true, false, false, false⟩⟩
    | _ => TouchPart.cleared
  let s : State := { State.reset with
    rgt := ⟨table touch, [⟨1, 0⟩, ⟨3, 0⟩, ⟨0, 0⟩, ⟨4, 1⟩], false, .released⟩
    csu := ⟨[createTwo], setState, 9, ⟨8, .applied, 2⟩, false⟩
    se := e
    pu := u
    hp := p }
  let s := match e.place with
    | .inLine y => s.setLc ⟨spanList s y, 0⟩
    | _ => s
  s.judgeNote

/-- The demo state at rest: the scan stopped, the set OPEN, the pointer up, SELECT high. -/
def rest : State := demo .opened stopped up quiet

/-- The demo state under the guard. -/
def guarded : State := (rest.setRgt { rest.rgt with guardEnable := true, guardLine := .asserted }).judgeNote

/-- The check byte of a request. -/
def checkOf (k : RequestKind) (p : List Byte) : Byte := crc8 (k.code :: BitVec.ofNat 8 p.length :: p)

/-- The frame whose check byte is next. -/
def frameOf (k : RequestKind) (p : List Byte) : Frame := ⟨some k.code, some (BitVec.ofNat 8 p.length), p, checkOf k p⟩

/-- Eight bits on SDI are a whole byte where none of its bits has been sampled. -/
theorem clocked_whole (b : Byte) (s : State) (hs : s.hp.select = .asserted) (hr : s.hp.resetLine = .released)
    (hb : s.hp.bits = []) : Clocked b (byteBits b) s :=
  ⟨hs, hr, by rw [hb, List.nil_append]⟩

/-- The state with a request whose check byte is next, and RESET released. -/
def presenting (k : RequestKind) (p : List Byte) (s : State) : State :=
  s.setHp { s.hp with select := .asserted, resetLine := .released, bits := [], trans := .receiving (frameOf k p) }

/-- The levels of SDI with which a request's check byte arrives. -/
def checkBits (k : RequestKind) (p : List Byte) : SdiBits := byteBits (checkOf k p)

/-- A request of the right length is presented. -/
theorem presented_presenting (k : RequestKind) (p : List Byte) (s : State) (hd : s.hp.softResetDue = false)
    (hl : p.length = k.paramLength) : Presented k p (checkBits k p) (presenting k p s) :=
  ⟨hd, hl, checkOf k p, checkOf k p, rfl, ⟨rfl, rfl, rfl⟩, (crcByte_self _).1⟩

/-- The reply to a request. -/
def ask (k : RequestKind) (p : List Byte) (s : State) : Option (List Byte) :=
  replyOf (exec (k.row (checkBits k p)) (presenting k p s))

/-- The state after a request. -/
def after (k : RequestKind) (p : List Byte) (s : State) : Option State :=
  nextOf (exec (k.row (checkBits k p)) (presenting k p s))

/-- Parameters of zeros, as many as the request takes. -/
def zeros (k : RequestKind) : List Byte := List.replicate k.paramLength 0

/-! ### Well-formed commands -/

/-- A character on PRX with a low start bit. -/
def prx (data : Byte) (marker stop : Bool) : PrxBits := (⟨data, marker, stop⟩ : PrxChar).bits

/-- A character on PRX as it stands after a start bit that is not there. -/
def noStart : PrxBits := prx 1 true true ||| 1

/-- R135: without its stop bit a character is never kept and completes no report. -/
theorem test_without_stop_is_ill_formed :
    ¬(Instr.pointerCharacterKept (prx 1 true false)).WellFormed ∧ ¬(Instr.reportDiscarded (prx 1 false false)).WellFormed
      ∧ ¬(Instr.contact (prx 1 false false)).WellFormed ∧ ¬(Instr.lift (prx 1 false false)).WellFormed := by decide

/-- R188: a character has a low start bit. -/
theorem test_without_start_is_ill_formed :
    ¬(Instr.pointerCharacterKept noStart).WellFormed ∧ ¬(Instr.pointerLinkFault noStart).WellFormed
      ∧ ¬(Instr.reportDiscarded noStart).WellFormed ∧ ¬(Instr.contact noStart).WellFormed
      ∧ ¬(Instr.lift noStart).WellFormed := by decide

/-- R135: a character with its stop bit may be kept, and one without it may be a LINK fault. -/
theorem test_character_is_well_formed :
    (Instr.pointerCharacterKept (prx 1 true true)).WellFormed ∧ (Instr.pointerLinkFault (prx 1 true false)).WellFormed := by decide

/-- R165: the levels of SDI that one row brings belong to one byte. -/
theorem test_levels_outside_a_byte_are_ill_formed :
    (∀ k : RequestKind, ¬(k.row []).WellFormed ∧ ¬(k.row (List.replicate 9 false)).WellFormed)
      ∧ ¬(Instr.framingFault []).WellFormed ∧ ¬(Instr.framingFault (List.replicate 9 false)).WellFormed
      ∧ ¬(Instr.requestByteReceived []).WellFormed ∧ ¬(Instr.requestByteReceived (List.replicate 9 true)).WellFormed :=
  ⟨fun k => by cases k <;> exact (by decide : ¬SdiBits.inByte [] ∧ ¬SdiBits.inByte (List.replicate 9 false)), by decide⟩

/-- R165: one level and eight levels are a byte's. -/
theorem test_levels_of_a_byte_are_well_formed :
    (Instr.requestByteReceived [true]).WellFormed ∧ (Instr.requestByteReceived (byteBits 0x71)).WellFormed := by decide

/-! ### The queue -/

/-- Log entry 1: the front command runs, and the rest stays. -/
theorem test_step_takes_the_front :
    (nextOf (step (State.reset.setPending [.guardLineChange .asserted, .resetRelease]))).map
      (fun t => (t.rgt.guardLine, t.pending)) = some (.asserted, [.resetRelease]) := by decide +kernel

/-- Log entry 2: the table gives no row any bits, so no word spells a command. -/
theorem test_no_word_spells_a_command : decodeTableWord 8 0x71 = none ∧ State.reset.withFetchWord 8 0x71 = State.reset := by
  decide +kernel

/-! ### Check bytes, handles, descriptors -/

/-- Section 10.2: the CRC-8 of 0x01 is 0x07 and of 0x01, 0x00 is 0x15; of 0x71, 0x00 (READ STATUS) it is 0xB7. -/
theorem test_crc8 : crc8 [1] = 0x07 ∧ crc8 [1, 0] = 0x15 ∧ crc8 [0x71] = 0x50 ∧ crc8 [0x71, 0] = 0xB7 := by decide +kernel

/-- R4, R184: generation 2 of slot 5 is 0x45. -/
theorem test_handle_byte : Handle.toByte ⟨5, 2⟩ = 0x45 ∧ Handle.ofByte 0x45 = ⟨5, 2⟩ := by decide

/-- R18: a descriptor whose width is above its stride is refused, and one that meets it is read. -/
theorem test_descriptor_width_and_stride :
    readDescriptor [0x20, 0, 0, 0, 40, 0, 16, 0, 0, 0, 0, 39, 8, 0, 0, 0, 0, 0, 0, 0] = none
      ∧ (readDescriptor [0x20, 0, 0, 0, 40, 0, 16, 0, 0, 0, 0, 40, 8, 0, 0, 0, 0, 0, 0, 0]).map (·.rect)
        = some ⟨0, 0, 40, 16⟩ := by decide +kernel

/-! ### The port -/

/-- R165: the levels 0 1 1 1 0 0 0 1 make 0x71, the first of them the most significant. -/
theorem test_read_byte :
    readByte [false, true, true, true, false, false, false, true] = 0x71
      ∧ byteBits 0x71 = [false, true, true, true, false, false, false, true] := by decide

/-- The state after commands, if each goes on. -/
def runAll (cs : List Instr) (s : State) : Option State := cs.foldlM (fun s c => nextOf (exec c s)) s

/-- R165: three bits are held, and five more make the kind byte 0x71. -/
theorem test_byte_in_two_parts :
    (runAll [.selectFall, .requestByteReceived [false, true, true]] rest).map (fun t => (t.hp.trans, t.hp.bits, t.pins.sdo))
        = some (.receiving Frame.empty, [false, true, true], some [false, false, false])
      ∧ (runAll [.selectFall, .requestByteReceived [false, true, true],
          .requestByteReceived [true, false, false, false, true]] rest).map (fun t => (t.hp.trans, t.hp.bits))
        = some (.receiving ⟨some 0x71, none, [], 0x50⟩, []) := by decide +kernel

/-- R165, R173: a partial first byte is discarded without CUT, and the next fall counts from zero. -/
theorem test_partial_byte_is_discarded :
    (runAll [.selectFall, .requestByteReceived [true, true, true], .selectRise] rest).map
        (fun t => (t.hp.trans, t.hp.bits, t.hp.cutFault, t.pins.sdo)) = some (.idle, [], false, none)
      ∧ (runAll [.selectFall, .requestByteReceived [true, true, true], .selectRise, .selectFall,
          .requestByteReceived (byteBits 0x71)] rest).map (·.hp.trans) = some (.receiving ⟨some 0x71, none, [], 0x50⟩) := by
  decide +kernel

/-- R165, R171: three bits of the reply code 0x40 have left, most significant first; then its other five. -/
theorem test_reply_bits :
    let s := demo .opened stopped up (portIn (.replying [0x40, 0, 0x33] 0 false))
    (runAll [.requestByteReceived [true, true, true]] s).map (fun t => (t.pins.sdo, t.hp.trans))
        = some (some [false, true, false], .replying [0x40, 0, 0x33] 0 false)
      ∧ (runAll [.requestByteReceived [true, true, true], .replyByteShifted] s).map (fun t => (t.pins.sdo, t.hp.trans, t.hp.bits))
        = some (some (byteBits 0x40), .replying [0x40, 0, 0x33] 1 false, []) := by decide +kernel

/-- R166, R167: the kind byte is held, and runs through the CRC register. -/
theorem test_request_byte_received :
    (nextOf (exec (.requestByteReceived (byteBits 0x71)) (demo .opened stopped up (portIn (.receiving Frame.empty))))).map (·.hp.trans)
      = some (.receiving ⟨some 0x71, none, [], 0x50⟩) := by decide +kernel

/-- R169: with a wrong check byte the answer is CHECK (0x4A) with its flag. -/
theorem test_framing_fault_check :
    (nextOf (exec (.framingFault (byteBits 0xB6)) (presenting .readStatus [] rest))).map
      (fun t => (t.hp.checkFault, t.hp.trans)) = some (true, .replying (encodeReply .check []) 0 false) := by decide +kernel

/-- R171: a reply byte leaves on SDO. -/
theorem test_reply_byte_shifted :
    (nextOf (exec .replyByteShifted (demo .opened stopped up (portIn (.replying [0x40, 0, 0x33] 0 false))))).map
      (fun t => (t.pins.sdo, t.hp.trans)) = some (some (byteBits 0x40), .replying [0x40, 0, 0x33] 1 false) := by decide +kernel

/-- R172, R180: after the check byte of a SOFT RESET's reply the port is DRAINING and the reset is due. -/
theorem test_reply_complete :
    (nextOf (exec .replyComplete (demo .opened stopped up (portIn (.replying [0x40, 0, 0x33] 2 true))))).map
      (fun t => (t.pins.sdo, t.hp.trans, t.hp.softResetDue)) = some (some (byteBits 0x33), .draining, true) := by decide +kernel

/-- R167: SELECT falling in IDLE begins a transaction. -/
theorem test_select_fall :
    (nextOf (exec .selectFall rest)).map (fun t => (t.hp.trans, t.pins.sdo)) = some (.receiving Frame.empty, some []) := by
  decide +kernel

/-- R174: a request cut after its first byte sets CUT. -/
theorem test_select_rise_cuts :
    (nextOf (exec .selectRise (presenting .readStatus [] rest))).map (fun t => (t.hp.trans, t.hp.cutFault, t.pins.sdo))
      = some (.idle, true, none) := by decide +kernel

/-! ### Requests -/

/-- R3, R185: the CREATE reserves slot 5, the lowest FREE slot, at index 1. -/
theorem test_create : ask .create [0x20, 0, 0, 0, 8, 0, 8, 0, 0, 0, 0, 8, 8, 0, 0, 0, 0, 0, 0, 0] rest
    = some [0x40, 0x05, 1] := by decide +kernel

/-- R46: an AMEND of the locked region is refused with LOCKED (0x46). -/
theorem test_amend_locked : ask .amend [1, 4, 0, 0, 0, 0, 0, 0, 0, 0] rest = some [0x46] := by decide +kernel

/-- R5, R45: slot 4 is at generation 1, so handle 0x04 is STALE (0x44) and 0x24 is current. -/
theorem test_retire_stale : ask .retire [0x04] rest = some [0x44] ∧ ask .retire [0x24] rest = some [0x40, 1] := by
  decide +kernel

/-- R32: a RESTACK ABOVE its own target is refused with RANGE (0x45). -/
theorem test_restack_own_ref : ask .restack [0, 3, 0] rest = some [0x45] ∧ ask .restack [0, 3, 0x24] rest = some [0x40, 1] := by
  decide +kernel

/-- R76: a LOCK of a locked region is staged. -/
theorem test_lock_locked : ask .lock [1] rest = some [0x40, 1] := by decide +kernel

/-- R51: a PUBLISH while STOPPED is evaluated at publish, and brings the reserved slot to LIVE at its generation. -/
theorem test_publish_stopped :
    ask .publish [] rest = some [0x40, 10, 1]
      ∧ (after .publish [] rest).map (fun t => (t.csu.outcome, t.rgt.stack))
        = some (⟨10, .applied, 1⟩, [⟨1, 0⟩, ⟨3, 0⟩, ⟨2, 3⟩, ⟨0, 0⟩, ⟨4, 1⟩]) := by decide +kernel

/-- R60: a WITHDRAW in OPEN is TOO_LATE (0x49). -/
theorem test_withdraw_open : ask .withdraw [] rest = some [0x49] := by decide +kernel

/-- R49, R50: a DISCARD returns the reserved slot to FREE at the next generation. -/
theorem test_discard : (after .discard [] rest).map (fun t => (t.csu.changes, slotAt t.rgt.slots 2)) = some ([], Slot.cleared 4) := by
  decide +kernel

/-- R62, R187: the outcome bytes of an APPLIED set. -/
theorem test_read_outcome : ask .readOutcome [] rest = some [0x40, 8, 1, 2, 0xFF, 0] := by decide +kernel

/-- R62, R187: the outcome bytes of a REJECTED set, with its failing index and BAND. -/
theorem test_read_outcome_rejected :
    ask .readOutcome [] (rest.setCsu { rest.csu with outcome := ⟨8, .rejected 15 .band, 16⟩ }) = some [0x40, 8, 2, 16, 15, 0x50] := by
  decide +kernel

/-- R23, R187: the 24 bytes of the RESERVED slot 2 at generation 3. -/
theorem test_read_region_reserved : ask .readRegion [0x62] rest
    = some [0x40, 0x62, 1, 0x28, 0, 0, 0, 8, 0, 8, 1, 0, 0, 0, 8, 8, 3, 0x82, 1, 0, 1, 6, 9, 0, 0xFF] := by decide +kernel

/-- R38, R187: the count, the telltale count, and the handles front first. -/
theorem test_read_stack : ask .readStack [] rest = some [0x40, 4, 2, 0x01, 0x03, 0x00, 0x24] := by decide +kernel

/-- R23: READ REGION of a FREE slot is STALE. -/
theorem test_read_region_free : ask .readRegion [7] rest = some [0x44] := by decide +kernel

/-- R70: GUARD OFF while the line is asserted is GUARDED (0x47), and the setting stays. -/
theorem test_guard_off_asserted : ask .guardOff [] guarded = some [0x47] := by decide +kernel

/-- R69: GUARD ON sets the setting. -/
theorem test_guard_on : (after .guardOn [] rest).map (·.rgt.guardEnable) = some true := by decide +kernel

/-- R83: SET TIMING while the scan is not STOPPED is STATE (0x48). -/
theorem test_set_timing_running :
    ask .setTiming [8, 48, 40, 0, 250, 0, 240, 16, 0, 0, 0, 40] (demo .opened (scanAt .running .outside none false false) up quiet)
      = some [0x48] := by decide +kernel

/-- R84, R187: the timing bytes of the small timing set. -/
theorem test_read_timing : ask .readTiming [] rest = some [0x40, 1, 8, 12, 8, 0, 10, 0, 8, 0x10, 0, 0, 0, 8] := by decide +kernel

/-- R86: START SCAN with no valid timing set is STATE. -/
theorem test_start_scan_unset : ask .startScan [] State.reset = some [0x48] ∧ ask .startScan [] rest = some [0x40] := by
  decide +kernel

/-- R87: in the retrace the stop point falls at the next frame start. -/
theorem test_stop_scan_in_retrace :
    (after .stopScan [] (demo .opened (scanAt .running (.retrace 1) none false false) up quiet)).map (fun t => (t.se.scan, t.se.stop))
      = some (.stopping, some .nextFrameStart) := by decide +kernel

/-- R138: a timeout of 16 is RANGE, of 15 is taken. -/
theorem test_pointer_settings_timeout :
    ask .pointerSettings [1, 16] rest = some [0x45] ∧ ask .pointerSettings [1, 15] rest = some [0x40] := by decide +kernel

/-- R152, R187: the bytes of a captured region's touch part. -/
theorem test_read_touch :
    ask .readTouch [0] (demo .opened stopped (pointer .waiting (.captured ⟨0, 0⟩) 1) quiet)
      = some [0x40, 0, 1, 1, 0, 1, 2, 0, 2, 14, 8] := by decide +kernel

/-- R152: READ TOUCH of a region without a touch part is RANGE. -/
theorem test_read_touch_none : ask .readTouch [0x24] rest = some [0x45] := by decide +kernel

/-- R141, R153: at (5, 0) the telltale of slot 3 is the one entry, with touch mode NONE: no hit. -/
theorem test_probe : ask .probe [5, 0, 0] rest = some [0x40, 0, 0, 1, 0, 0x03] := by decide +kernel

/-- R177, R187: the status of the part right after power-on is thirteen zeros. -/
theorem test_read_status_reset : ask .readStatus [] State.reset = some [0x40, 0, 0, 0, 0, 0, 0, 0, 0, 0, 0, 0, 0, 0] := by
  decide +kernel

/-- R179: an enable byte of 2 is RANGE. -/
theorem test_set_note_mask_range : ask .setNoteMask [0, 2, 0] rest = some [0x45] := by decide +kernel

/-- R180: SOFT RESET answers DONE before its reset acts. -/
theorem test_soft_reset : (after .softReset [] rest).map (fun t => (t.hp.softResetDue, t.rgt.stack.length)) = some (false, 4) := by
  decide +kernel

/-- R26: the soft reset leaves the locked region alone. -/
theorem test_soft_reset_action :
    (nextOf (exec .softResetAction (rest.setHp { rest.hp with softResetDue := true }))).map
      (fun t => (t.rgt.stack, slotAt t.rgt.slots 4)) = some ([⟨1, 0⟩], Slot.cleared 2) := by decide +kernel

/-! ### Resets and lines -/

/-- R25, R65: the RESET line frees the reserved slot and keeps the regions. -/
theorem test_reset_assert :
    (nextOf (exec .resetAssert rest)).map (fun t => (t.rgt.stack.length, slotAt t.rgt.slots 2, t.hp.trans))
      = some (4, Slot.cleared 4, .held) := by decide +kernel

/-- R182: RESET released with SELECT low leaves HELD. -/
theorem test_reset_release :
    (nextOf (exec .resetRelease (rest.setHp { rest.hp with trans := .held, resetLine := .asserted, select := .asserted }))).map
      (·.hp.trans) = some .held := by decide +kernel

/-- R182: power-on with SELECT low is HELD. -/
theorem test_power_on :
    (nextOf (exec (.powerOn .asserted .asserted .released) rest)).map (fun t => (t.hp.trans, t.rgt.guardLine, t.csu.seq))
      = some (.held, .asserted, 0) := by decide +kernel

/-- R95: a change of FALLBACK is recorded, and is not effective before a frame start. -/
theorem test_fallback_line :
    (nextOf (exec (.fallbackLineChange .asserted) rest)).map (fun t => (t.se.fallbackLine, t.se.fallbackEffective))
      = some (.asserted, false) := by decide +kernel

/-! ### The scan -/

/-- R94: the first frame start after START SCAN leaves the counter as it is. -/
theorem test_first_frame_start :
    (nextOf (exec (.frameStart .csuFirst) (demo .opened (scanAt .running .outside none false false) up quiet))).map
      (fun t => (t.se.frame, t.se.place, t.pins.fsync)) = some (5, .before 0, true) := by decide +kernel

/-- R94: a frame start after the retrace advances the counter. -/
theorem test_next_frame_start :
    (nextOf (exec (.frameStart .puFirst) (demo .opened (scanAt .running (.retrace 2) none false false) up quiet))).map
      (fun t => (t.se.frame, t.se.tickOwed)) = some (6, false) := by decide +kernel

/-- R101, R102: line 0 of the demo state: the region of slot 0, background, then the telltales of slots 3 and 1 (the latter in
front). -/
theorem test_line_start :
    (nextOf (exec .lineStart (demo .opened (scanAt .running (.before 0) none false false) up quiet))).map (·.lc.spans)
      = some [⟨0, 3, .region ⟨0, 0⟩⟩, ⟨4, 4, .background⟩, ⟨5, 5, .region ⟨3, 0⟩⟩, ⟨6, 7, .region ⟨1, 0⟩⟩] := by decide +kernel

/-- R106, R132: column 0 of line 5 is in no region that reaches there, so BACKGROUND: no fetch, address 0, dots off. -/
theorem test_cell_issue_background :
    (nextOf (exec (.cellIssue ⟨0xFF, 0xFF⟩ 2) (demo .opened (scanAt .running (.inLine 5) none false false) up quiet))).map
      (fun t => (t.pins.fetch, t.pins.maddr, t.pins.dots)) = some (false, 0, [0, 0]) := by decide +kernel

/-- R106: column 0 of line 1 shows raster (1 + 3) mod 8 = 4 of the cell at the base; pattern 0x3C leaves as 0011 and 1100. -/
theorem test_cell_issue_text :
    (nextOf (exec (.cellIssue ⟨0x3C, 0⟩ 2) (demo .opened (scanAt .running (.inLine 1) none false false) up quiet))).map
      (fun t => (t.pins.maddr, t.pins.rast, t.pins.dots, t.cou)) = some (65536, 4, [3, 12], ⟨none, 0⟩) := by decide +kernel

/-- The demo state in line 1 with one of the two groups of column 0's cell shifted. -/
def halfShifted : Option State :=
  nextOf (exec (.cellIssue ⟨0x3C, 0⟩ 1) (demo .opened (scanAt .running (.inLine 1) none false false) up quiet))

/-- R133: a RESET after a cell's first group leaves the second unshifted, and the first unlatched in the column drivers. -/
theorem test_reset_drops_the_cell_in_progress :
    (halfShifted.bind fun s => nextOf (exec .resetAssert s)).map (fun t => (t.cou, t.pins.dout, t.pins.dots, t.panel))
      = some (⟨none, 0⟩, 0, [], ⟨[3], []⟩) := by decide +kernel

/-- R119: the dots left of a cell are shifted before those of the next. -/
theorem test_next_cell_waits_for_the_dots :
    (halfShifted.bind fun s => nextOf (exec (.cellIssue ⟨0xF0, 0⟩ 2) s)).map (fun t => (t.pins.dots, t.panel.shifted))
      = some ([12, 15, 0], [3, 12, 15, 0]) := by decide +kernel

/-- R90: the end of the last displayed line raises LSYNC and enters the retrace. -/
theorem test_line_end :
    (nextOf (exec .lineEnd (let s := demo .opened (scanAt .running (.inLine 7) none false false) up quiet
      s.setLc { s.lc with column := 8 }))).map (fun t => (t.se.place, t.pins.lsync, t.lc)) = some (.retrace 0, true, ⟨[], 0⟩) := by
  decide +kernel

/-- R91: a retrace line passes. -/
theorem test_retrace_line :
    (nextOf (exec .retraceLine (demo .opened (scanAt .running (.retrace 0) none false false) up quiet))).map (·.se.place)
      = some (.retrace 1) := by decide +kernel

/-- R53, R92: the stop point stops the scan and applies the pending set; the frame counter stays. -/
theorem test_stop_point :
    (nextOf (exec .stopPoint (demo .pending (scanAt .stopping (.retrace 0) (some .lastLineEnd) false false) up quiet))).map
      (fun t => (t.se.scan, t.se.frame, t.csu.outcome)) = some (.stopped, 5, ⟨9, .applied, 1⟩) := by decide +kernel

/-- Section 7.8: a cell blinking behind a FAST cursor on raster 6 of cell height 8, pattern 0x3C, frames 5, 20, 40 and 50. -/
theorem test_blink_and_cursor :
    let cell : Cell := ⟨.text, true, 70000, 6, false, true, some ⟨70000, 6, 9, .fast⟩, 8, 0x3C, 0x20⟩
    [5, 20, 40, 50].map (fun f => groupDots (resolve 8 f cell)) = [[12, 3], [3, 12], [15, 15], [0, 0]] := by decide +kernel

/-- Section 6.7, R111: an address is reduced modulo 16,777,216. -/
theorem test_address_wraps :
    (cellOf (rest.setSe { rest.se with timing := { smallTiming with fallbackBase := 0xFFFFFF, fallbackStride := 8 } })
      .fallback 1 3 0 0).address = 24 := by decide +kernel

/-! ### The pointer -/

/-- The pointer with four bytes of a report. -/
def reported (bytes : List Byte) (contact : Contact) : State :=
  demo .opened stopped (pointer (.collecting bytes) contact 2) quiet

/-- R188: the byte 0x05 with the marker on PRX: start 0, data 1 0 1 0 0 0 0 0, marker 1, stop 1, the first level in bit 0. -/
theorem test_prx_levels :
    readCharacter 0b11000001010 = some ⟨0x05, true, true⟩ ∧ readCharacter 0b11000001011 = none
      ∧ (⟨0x05, true, true⟩ : PrxChar).bits = 0b11000001010 := by decide

/-- R143: a CONTACT at (1, 2) captures the region of slot 0, with PRESS news; the silence count is 0. -/
theorem test_contact :
    (nextOf (exec (.contact (prx 4 false true)) (reported [1, 1, 0, 2] .up))).map
      (fun t => (t.pu.contact, t.pu.silence, newsSlots t.rgt.slots)) = some (.captured ⟨0, 0⟩, 0, [0]) := by decide +kernel

/-- R145: a LIFT inside counts an activation, to no more than 15, and the contact is UP. -/
theorem test_lift :
    (nextOf (exec (.lift (prx 5 false true)) (reported [2, 1, 0, 2] (.captured ⟨0, 0⟩)))).map
      (fun t => (t.pu.contact, (slotAt t.rgt.slots 0).touch.map (·.activations))) = some (.up, some 15) := by decide +kernel

/-- R136: a wrong check byte is a LINK fault. -/
theorem test_report_discarded_link :
    (nextOf (exec (.reportDiscarded (prx 5 false true)) (reported [1, 1, 0, 2] .up))).map (fun t => (t.pu.linkFault, t.pu.receiver))
      = some (true, .waiting) := by decide +kernel

/-- R136: a point outside the displayed area is a RANGE fault. -/
theorem test_report_discarded_range :
    (nextOf (exec (.reportDiscarded (prx 11 false true)) (reported [1, 8, 0, 2] .up))).map (fun t => (t.pu.linkFault, t.pu.rangeFault))
      = some (false, true) := by decide +kernel

/-- R135: a marker in a report begins a new one, with a LINK fault. -/
theorem test_pointer_link_fault :
    (nextOf (exec (.pointerLinkFault (prx 1 true true)) (reported [1, 1] .up))).map (fun t => (t.pu.receiver, t.pu.linkFault))
      = some (.collecting [1], true) := by decide +kernel

/-- R135: a byte without the marker joins the report. -/
theorem test_pointer_character_kept :
    (nextOf (exec (.pointerCharacterKept (prx 9 false true)) (reported [1, 1] .up))).map (·.pu.receiver)
      = some (.collecting [1, 1, 9]) := by decide +kernel

/-- A running scan whose frame start PU is to take. -/
def owed (fallback : Bool) (contact : Contact) (silence : Nat) : State :=
  demo .opened (scanAt .running (.before 0) none true fallback) (pointer .waiting contact silence) quiet

/-- R146: short of the timeout a tick counts. -/
theorem test_pointer_tick :
    (nextOf (exec .pointerTick (owed false .unclaimed 1))).map (fun t => (t.pu.silence, t.se.tickOwed)) = some (2, false) := by
  decide +kernel

/-- R146, R149: at the timeout a capture is cancelled, with CANCEL news. -/
theorem test_contact_timeout :
    (nextOf (exec .contactTimeout (owed false (.captured ⟨0, 0⟩) 2))).map
      (fun t => (t.pu.contact, t.pu.lastCause, (slotAt t.rgt.slots 0).touch.map (·.news.cancel)))
      = some (.up, some .timeout, some true) := by decide +kernel

/-- Log entry 3: a row that is not the event the state brings is refused by name. -/
theorem test_rows_refused :
    refusalOf (exec .lineStart (owed false .up 0)) = some .happeningOutOfPlace
      ∧ refusalOf (exec .contactTimeout (owed false .unclaimed 1)) = some .timeoutNotReached
      ∧ refusalOf (exec .stopPoint (demo .opened (scanAt .stopping (.retrace 1) (some .nextFrameStart) false false) up quiet))
        = some .happeningOutOfPlace
      ∧ refusalOf (exec (.create (byteBits 0)) (presenting .amend (zeros .amend) rest)) = some .frameOfOtherKind := by decide +kernel

/-! ### Witnesses: the queue and the laws -/

/-- A lawful state in the middle of line 1, with a cell half shifted, a captured contact, a staged CREATE and a command waiting. -/
def busy : State :=
  let s := demo .opened (scanAt .running (.inLine 1) none false false) (pointer .waiting (.captured ⟨0, 0⟩) 2) quiet
  (((s.setLc { s.lc with column := 1 }).setCou ⟨some (cellOf s (.region ⟨0, 0⟩) 0 1 0x3C 0), 1⟩).setPanel
    { s.panel with shifted := [3] }).setPending [.guardLineChange .asserted]

/-- The state of the tests with a soft reset due. -/
def due (setState : SetState) (e : Se) (u : Pu) : State := demo setState e u { quiet with softResetDue := true }

theorem busy_lawful : busy.lawful = true := by decide +kernel

theorem rest_lawful : rest.lawful = true := by decide +kernel

theorem witness_StepTakesFrontCommand :
    busy.pending = [.guardLineChange .asserted] ∧ State.reset.pending = [] := by decide +kernel

theorem witness_CommandsIgnoreTheQueue : ∃ t, exec (.guardLineChange .asserted) busy = .next t :=
  next_of_goesOn (by decide +kernel)

theorem witness_DueSoftResetActsFirst :
    (due .opened stopped up).hp.softResetDue = true ∧ ¬Instr.selectFall.isPowerOn :=
  ⟨by decide +kernel, by rintro ⟨a, b, c, h⟩; cases h⟩

theorem witness_LawsHoldAfterPowerOn : ∃ t, exec (.powerOn .asserted .asserted .asserted) busy = .next t :=
  next_of_goesOn (by decide +kernel)

/-- For StepKeepsStackingLaw, StepKeepsSlotLaw, StepKeepsStagingLaw, StepKeepsTouchLaw, StepKeepsAreaAndRangeLaws, StepKeepsScanLaw,
StepKeepsLineLaw and StepKeepsPortAndReceiverLaws. -/
theorem witness_StepKeeps_laws : busy.Inv ∧ ∃ t, step busy = .next t :=
  ⟨State.inv_of_lawful busy_lawful, next_of_goesOn (by decide +kernel)⟩

theorem witness_NoteFollowsItsCauses :
    ∃ t, exec (.contact (prx 4 false true)) (reported [1, 1, 0, 2] .up) = .next t := next_of_goesOn (by decide +kernel)

/-! ### Witnesses: the laws over all commands -/

theorem witness_LockedRegionIsHeld :
    rest.Inv ∧ ¬Instr.resetAssert.isPowerOn ∧ (∃ t, exec .resetAssert rest = .next t)
      ∧ (slotAt rest.rgt.slots 1).state = .live ∧ (slotAt rest.rgt.slots 1).record.locked = true
      ∧ (Instr.powerOn .released .released .released).isPowerOn
      ∧ ∃ t, exec (.powerOn .released .released .released) rest = .next t :=
  ⟨State.inv_of_lawful rest_lawful, (by rintro ⟨a, b, c, h⟩; cases h), next_of_goesOn (by decide +kernel), by decide +kernel,
    by decide +kernel, ⟨_, _, _, rfl⟩, next_of_goesOn (by decide +kernel)⟩

/-- The demo state under the guard with its soft reset due. -/
def guardedDue : State := guarded.setHp { guarded.hp with softResetDue := true }

theorem witness_GuardedTelltalesAreHeld :
    guardedDue.Inv ∧ ¬Instr.softResetAction.isPowerOn ∧ guardedDue.rgt.guardInForce = true
      ∧ (∃ t, exec .softResetAction guardedDue = .next t)
      ∧ (slotAt guardedDue.rgt.slots 3).state = .live ∧ (slotAt guardedDue.rgt.slots 3).record.cls = .telltale
      ∧ (slotAt guardedDue.rgt.slots 1).record.locked = true :=
  ⟨State.inv_of_lawful (by decide +kernel), (by rintro ⟨a, b, c, h⟩; cases h), by decide +kernel, next_of_goesOn (by decide +kernel),
    by decide +kernel, by decide +kernel, by decide +kernel⟩

theorem witness_SlotsChangeStateOnlyAsListed :
    (due .pending (scanAt .running .outside none false false) up).Inv ∧ ¬Instr.softResetAction.isPowerOn
      ∧ ∃ t, exec .softResetAction (due .pending (scanAt .running .outside none false false) up) = .next t :=
  ⟨State.inv_of_lawful (by decide +kernel), (by rintro ⟨a, b, c, h⟩; cases h), next_of_goesOn (by decide +kernel)⟩

/-- The clauses: a LIVE slot at a command that releases reservations, and any slot at one that does not. -/
theorem witness_TableChangesOnlyAtCommitsAndResets :
    ¬Instr.lineStart.isPowerOn ∧ ¬Instr.lineStart.isApplyPoint ∧ rest.hp.softResetDue = false
      ∧ (∃ t, exec .lineStart rest = .next t) ∧ ¬Instr.lineStart.emptiesList ∧ (∀ sdi, Instr.lineStart ≠ .create sdi)
      ∧ ¬Instr.resetAssert.isPowerOn ∧ ¬Instr.resetAssert.isApplyPoint ∧ (∃ t, exec .resetAssert rest = .next t)
      ∧ (slotAt rest.rgt.slots 0).state = .live := by
  refine ⟨?_, ?_, by decide +kernel, next_of_goesOn (by decide +kernel), ?_, by simp, ?_, ?_, next_of_goesOn (by decide +kernel),
    by decide +kernel⟩
  all_goals first
    | (rintro ⟨a, b, c, h⟩; cases h)
    | (rintro (⟨a, h⟩ | ⟨a, h⟩ | h) <;> cases h)

/-- The demo state with an outcome not yet read. -/
def unreadRest : State := (rest.setCsu { rest.csu with unread := true }).judgeNote

/-- The clauses: power-on; an outcome that changes; an outcome-unread flag that is cleared. -/
theorem witness_SequenceNumberAndOutcomeWrites :
    PortLaw (presenting .readOutcome [] unreadRest).hp ∧ unreadRest.csu.unread = true
      ∧ (after .readOutcome [] unreadRest).map (·.csu.unread) = some false
      ∧ (after .publish [] rest).map (fun t => decide (t.csu.outcome ≠ rest.csu.outcome)) = some true
      ∧ PortLaw (presenting .publish [] rest).hp
      ∧ (Instr.powerOn .asserted .released .released).isPowerOn :=
  ⟨portLaw_of_check (by decide +kernel), by decide +kernel, by decide +kernel, by decide +kernel,
    portLaw_of_check (by decide +kernel), ⟨_, _, _, rfl⟩⟩

/-- The clauses: the RESET line, a due soft reset, START SCAN in both cases, a frame start at both places, the stop point, and a command
that is none of these. -/
theorem witness_FrameCounterAndFallbackFlagTables :
    Presented .startScan [] (checkBits .startScan []) (presenting .startScan [] rest)
      ∧ goesOn (exec .resetAssert rest) = true
      ∧ (due .opened stopped up).hp.softResetDue = true ∧ goesOn (exec .selectFall (due .opened stopped up)) = true
      ∧ goesOn (exec (.startScan (checkBits .startScan [])) (presenting .startScan [] rest)) = true
      ∧ rest.se.scan = .stopped ∧ rest.se.timingValid = true ∧ State.reset.se.timingValid = false
      ∧ goesOn (exec (.frameStart .csuFirst) (demo .opened (scanAt .running .outside none false false) up quiet)) = true
      ∧ goesOn (exec (.frameStart .puFirst) (demo .opened (scanAt .running (.retrace 2) none false true) up quiet)) = true
      ∧ goesOn (exec .stopPoint (demo .opened (scanAt .stopping (.retrace 0) (some .lastLineEnd) false false) up quiet)) = true
      ∧ goesOn (exec (.frameStart .csuFirst) rest) = true ∧ goesOn (exec .selectFall rest) = true :=
  ⟨presented_presenting _ _ _ (by decide +kernel) rfl, by decide +kernel⟩

theorem witness_SettingsChangeOnlyByTheirEvents :
    ¬Instr.resetAssert.isPowerOn ∧ (∃ t, exec .resetAssert guardedDue = .next t) ∧ Instr.resetAssert ≠ .selectFall :=
  ⟨(by rintro ⟨a, b, c, h⟩; cases h), next_of_goesOn (by decide +kernel), by decide⟩

/-- The demo state with all six fault flags set. -/
def faulty : State :=
  ((rest.setHp { rest.hp with cutFault := true, checkFault := true, lengthFault := true, unknownFault := true }).setPu
    { rest.pu with linkFault := true, rangeFault := true }).judgeNote

theorem witness_FaultFlagsAreSticky :
    ¬Instr.selectFall.isPowerOn ∧ Instr.selectFall ≠ .resetAssert ∧ faulty.hp.softResetDue = false
      ∧ (∃ t, exec .selectFall faulty = .next t) ∧ faulty.hp.cutFault = true ∧ faulty.hp.checkFault = true
      ∧ faulty.hp.lengthFault = true ∧ faulty.hp.unknownFault = true ∧ faulty.pu.linkFault = true ∧ faulty.pu.rangeFault = true :=
  ⟨(by rintro ⟨a, b, c, h⟩; cases h), by decide, by decide +kernel, next_of_goesOn (by decide +kernel), by decide +kernel⟩

/-! ### Witnesses: framing and formats -/

/-- Every kind of request is presented in some state. -/
theorem witness_PresentedRequestIsAnswered (k : RequestKind) :
    Presented k (zeros k) (checkBits k (zeros k)) (presenting k (zeros k) rest) :=
  presented_presenting _ _ _ (by decide +kernel) (by simp [zeros])

/-- A frame of length 0 with this kind byte whose check byte is next. -/
def frameOfKind (kind length : Byte) : Frame := ⟨some kind, some length, [], crc8 [kind, length]⟩

/-- The clauses: a bad check byte; no such kind (0x00 and 0xFF at the ends of the codes); a wrong length (a RETIRE of length 0); a good
READ STATUS; and the row of the kind. -/
theorem witness_FramingJudgement :
    Clocked 0xB7 (byteBits 0xB7) (demo .opened stopped up (portIn (.receiving (frameOfKind 0x71 0))))
      ∧ rest.hp.softResetDue = false
      ∧ (frameOfKind 0x71 0).params.length = (0x00 : Byte).toNat
      ∧ crcByte (frameOfKind 0x71 0).crc 0xB6 ≠ 0 ∧ crcByte (frameOfKind 0x71 0).crc 0xB7 = 0
      ∧ crcByte (frameOfKind 0xFF 0).crc (crc8 [0xFF, 0]) = 0 ∧ (∀ k : RequestKind, k.code ≠ 0xFF) ∧ (∀ k : RequestKind, k.code ≠ 0)
      ∧ crcByte (frameOfKind 0x13 0).crc (crc8 [0x13, 0]) = 0 ∧ RequestKind.retire.code = 0x13
      ∧ (0x00 : Byte).toNat ≠ RequestKind.retire.paramLength
      ∧ RequestKind.readStatus.code = 0x71 ∧ (0x00 : Byte).toNat = RequestKind.readStatus.paramLength :=
  ⟨⟨by decide +kernel, by decide +kernel, by decide +kernel⟩, by decide +kernel, by decide, by decide +kernel, by decide +kernel,
    by decide +kernel, fun k => by cases k <;> decide, fun k => by cases k <;> decide, by decide +kernel, rfl, by decide, rfl, by decide⟩

/-- Records at the ends of their ranges: the largest rectangle with a cursor, and a bitmap; and a descriptor that is read, with its cursor
byte's bit 7 at 0, and one with the bit at 1. -/
theorem witness_DescriptorReadsBack :
    (⟨.telltale, false, ⟨0, 0, 200, 800⟩, ⟨.text, 0xFFFFFF, 4095, 32, 31⟩, ⟨true, true, true⟩, some ⟨0xFFFFFF, 0, 31, .fast⟩,
        .block⟩ : RegionRecord).inRange
      ∧ (⟨.ordinary, false, ⟨199, 799, 1, 1⟩, ⟨.bitmap, 0, 1, 1, 0⟩, ⟨false, false, false⟩, none, .accept⟩ : RegionRecord).inRange
      ∧ (readDescriptor [0x20, 0, 0, 0, 8, 0, 8, 0, 0, 0, 0, 8, 8, 0, 0, 0, 0, 0, 0, 0]).isSome = true
      ∧ readDescriptor [0xA1, 0, 0, 0, 8, 0, 8, 0, 0, 0, 0, 8, 8, 0, 0x82, 0, 0, 9, 6, 31]
        = some ⟨.telltale, false, ⟨0, 0, 8, 8⟩, ⟨.text, 0, 8, 8, 0⟩, ⟨true, false, false⟩, some ⟨9, 6, 31, .fast⟩, .accept⟩ :=
  ⟨record_inRange_of_check (by decide), record_inRange_of_check (by decide), by decide +kernel, by decide +kernel⟩

/-! ### Witnesses: composition and the hit test -/

theorem witness_SpanListIsTheRunsOfOwners : 1 ≤ rest.se.timing.displayedColumns ∧ (spanList rest 0).length = 4 := by decide +kernel

theorem witness_SpanListHoldsAtMost65 : rest.Inv := State.inv_of_lawful rest_lawful

/-- The clauses: fallback effective at the last cell of the area, and not effective. -/
theorem witness_OwnersOfCells :
    let s := rest.setSe { rest.se with fallbackEffective := true }
    s.se.fallbackEffective = true ∧ 7 < s.se.timing.displayedColumns ∧ 7 < s.se.timing.displayedLines
      ∧ ownerOf s (effectiveOrder s) 7 7 = .fallback ∧ rest.se.fallbackEffective = false
      ∧ ownerOf rest (effectiveOrder rest) 0 0 = .region ⟨0, 0⟩ := by decide +kernel

/-- Each of the three results comes about. -/
theorem witness_HitTestFindsFrontmostAccept :
    hitTest rest ⟨3, 3⟩ = .hit ⟨0, 0⟩ ∧ hitTest rest ⟨4, 0⟩ = .none ∧ hitTest rest ⟨4, 4⟩ = .blocked := by decide +kernel

/-! ### Witnesses: evaluation -/

/-- A set that passes, and a set whose last change fails. -/
theorem witness_EvaluationStopsAtFirstFailure :
    (∃ w, evaluate false rest.se.area rest.working [createTwo] = .passed w)
      ∧ evaluate false rest.se.area rest.working [createTwo, ⟨1, ⟨4, 0⟩, .retire⟩] = .failed 1 .stale :=
  ⟨⟨carryOut rest.working createTwo, by decide +kernel⟩, by decide +kernel⟩

theorem witness_ApplyIsAllOrNothing :
    evaluate rest.rgt.guardInForce rest.se.area rest.working rest.csu.changes = .passed (carryOut rest.working createTwo)
      ∧ evaluate State.reset.rgt.guardInForce State.reset.se.area State.reset.working [⟨0, ⟨0, 0⟩, .lock⟩] = .failed 0 .stale := by
  decide +kernel

/-- The captured region of slot 0: LIVE and visible; then with its touch part dropped; hidden; and freed. -/
theorem witness_CommitNoticeCancelsCapture :
    let hidden := putSlot busy.rgt.slots 0 { slotAt busy.rgt.slots 0 with
      record := { (slotAt busy.rgt.slots 0).record with look := ⟨false, false, false⟩ } }
    let freed := putSlot busy.rgt.slots 0 (Slot.cleared 1)
    busy.pu.contact = .captured ⟨0, 0⟩ ∧ rest.pu.contact = .up
      ∧ isCurrent freed ⟨0, 0⟩ = false ∧ isCurrent hidden ⟨0, 0⟩ = true ∧ isVisible hidden ⟨0, 0⟩ = false
      ∧ isCurrent busy.rgt.slots ⟨0, 0⟩ = true ∧ isVisible busy.rgt.slots ⟨0, 0⟩ = true
      ∧ (0 : Fin 32) ∈ [(0 : Fin 32)] ∧ (0 : Fin 32) ∉ [(1 : Fin 32)] := by decide +kernel

/-- The clauses: a BITMAP record and a TEXT record that fit and one that does not; a region whose touch part goes, by a change of mode
and by a RETIRE. -/
theorem witness_ApplyChecksInOrder_and_CarriedOutChanges :
    recordFits rest.se.area bitmapRecord = true ∧ recordFits rest.se.area (textRecord .ordinary false ⟨0, 0, 4, 4⟩ .none) = true
      ∧ recordFits none bitmapRecord = false ∧ isCurrent rest.rgt.slots ⟨0, 0⟩ = true
      ∧ (slotAt rest.rgt.slots 1).record.locked = true ∧ (slotAt rest.rgt.slots 3).record.cls = .telltale
      ∧ (slotAt rest.rgt.slots 0).touch.isSome = true
      ∧ (carryOut rest.working ⟨0, ⟨0, 0⟩, .amend (.touch .none)⟩).dropped = [0]
      ∧ (carryOut rest.working ⟨0, ⟨0, 0⟩, .retire⟩).dropped = [0]
      ∧ (carryOut rest.working ⟨0, ⟨0, 0⟩, .restack .back⟩).stack = [⟨1, 0⟩, ⟨3, 0⟩, ⟨4, 1⟩, ⟨0, 0⟩] := by decide +kernel

/-- The order of the demo state: telltales 1 and 3, ordinary 0 and 4. -/
theorem witness_RestackPlaces :
    let t := rest.rgt.slots
    rest.rgt.stack.Nodup ∧ (⟨0, 0⟩ : Handle) ∈ rest.rgt.stack ∧ (⟨3, 0⟩ : Handle) ∈ rest.rgt.stack
      ∧ (rest.rgt.stack.Pairwise fun a b => classOf t a = .telltale ∨ classOf t b = .ordinary)
      ∧ (⟨4, 1⟩ : Handle) ∈ rest.rgt.stack ∧ classOf t ⟨4, 1⟩ = classOf t ⟨0, 0⟩
      ∧ isCurrent t ⟨2, 3⟩ = true ∧ (⟨2, 3⟩ : Handle) ∉ rest.rgt.stack
      ∧ classOf t ⟨3, 0⟩ = .telltale ∧ classOf t ⟨0, 0⟩ = .ordinary := by decide +kernel

/-! ### Witnesses: dots and addresses -/

theorem witness_BlinkPhases :
    (0 : BitVec 6).toNat ≤ 15 ∧ (15 : BitVec 6).toNat ≤ 15 ∧ 16 ≤ (16 : BitVec 6).toNat ∧ (31 : BitVec 6).toNat ≤ 31
      ∧ 32 ≤ (32 : BitVec 6).toNat ∧ (47 : BitVec 6).toNat ≤ 47 ∧ 48 ≤ (48 : BitVec 6).toNat ∧ 48 ≤ (63 : BitVec 6).toNat := by
  decide

theorem witness_DotsOfACell :
    15 < 16 ∧ (resolve 16 0 (cellOf rest (.region ⟨0, 0⟩) 0 0 0 0)).length % 4 = 0
      ∧ (cellOf rest (.region ⟨0, 0⟩) 0 0 0 0).kind = .text ∧ (cellOf rest (.region ⟨4, 1⟩) 4 4 0 0).kind = .bitmap
      ∧ (cellOf rest .fallback 0 0 0 0).kind = .fallback ∧ (cellOf rest .background 0 0 0 0).kind = .background := by decide +kernel

theorem witness_CellAddresses :
    let r (h : Handle) := (slotAt rest.rgt.slots h.slot).record
    (r ⟨0, 0⟩).source.inRange ∧ (r ⟨0, 0⟩).rect.contains 3 3 = true ∧ (r ⟨0, 0⟩).source.kind = .text
      ∧ (r ⟨4, 1⟩).source.inRange ∧ (r ⟨4, 1⟩).rect.contains 7 7 = true ∧ (r ⟨4, 1⟩).source.kind = .bitmap :=
  ⟨source_inRange_of_check (by decide +kernel), by decide +kernel, by decide +kernel, source_inRange_of_check (by decide +kernel),
    by decide +kernel, by decide +kernel⟩

/-! ### Witnesses: resets and lines -/

/-- The clauses: a set PENDING, and a set OPEN; a captured contact, and none. -/
theorem witness_ResetAssertState :
    busy.Inv ∧ busy.hp.softResetDue = false ∧ busy.csu.setState = .opened
      ∧ (demo .pending (scanAt .running .outside none false false) up quiet).Inv
      ∧ (demo .pending (scanAt .running .outside none false false) up quiet).csu.setState = .pending :=
  ⟨State.inv_of_lawful busy_lawful, by decide +kernel, by decide +kernel, State.inv_of_lawful (by decide +kernel), by decide +kernel⟩

theorem witness_SoftResetActionState :
    rest.hp.softResetDue = false
      ∧ (due .pending (scanAt .running (.before 7) none false true) (pointer .waiting (.captured ⟨0, 0⟩) 2)).Inv
      ∧ (due .pending (scanAt .running (.before 7) none false true) (pointer .waiting (.captured ⟨0, 0⟩) 2)).csu.setState = .pending
      ∧ guardedDue.Inv ∧ guardedDue.hp.softResetDue = true ∧ guardedDue.csu.setState = .opened :=
  ⟨by decide +kernel, State.inv_of_lawful (by decide +kernel), by decide +kernel, State.inv_of_lawful (by decide +kernel),
    by decide +kernel, by decide +kernel⟩

/-- A port held in reset, with SELECT at a level. -/
def heldPort (select : LineLevel) : Hp := { quiet with trans := .held, select := select, resetLine := .asserted }

theorem witness_BoardLineChanges :
    (demo .opened stopped up (heldPort .released)).hp.resetLine = .asserted
      ∧ (demo .opened stopped up (heldPort .released)).hp.select = .released
      ∧ (demo .opened stopped up (heldPort .asserted)).hp.select = .asserted
      ∧ (demo .opened stopped up (heldPort .asserted)).hp.softResetDue = false
      ∧ rest.hp.resetLine = .released ∧ rest.hp.softResetDue = false := by decide +kernel

/-! ### Witnesses: the host port -/

/-- The clauses, in order: SELECT low already; IDLE; held in reset; SELECT high already; RECEIVING before and after its first byte;
REPLYING; DRAINING; HELD with RESET released and asserted; and a byte's row with seven bits sampled in all, with nine, and its byte. -/
theorem witness_SelectEdges :
    clocksPort (.readStatus [true]) [true] rest ∧ clocksPort .replyComplete rest.restOfByte rest
      ∧ (portIn .draining).select = .asserted ∧ (portIn .draining).softResetDue = false
      ∧ quiet.select = .released ∧ quiet.trans = .idle ∧ quiet.resetLine = .released ∧ quiet.softResetDue = false
      ∧ (heldPort .released).trans ≠ .idle ∧ (heldPort .released).resetLine = .asserted
      ∧ (portIn (.receiving Frame.empty)).trans = .receiving Frame.empty ∧ Frame.empty.kind = none
      ∧ (portIn (.receiving (frameOfKind 0 0))).trans = .receiving (frameOfKind 0 0) ∧ (frameOfKind 0 0).kind ≠ none
      ∧ (portIn (.replying [0x40, 0, 0x33] 0 true)).trans = .replying [0x40, 0, 0x33] 0 true
      ∧ (portIn .held).trans = .held ∧ (portIn .held).resetLine = .released
      ∧ (heldPort .asserted).trans = .held ∧ (heldPort .asserted).select = .asserted
      ∧ ((portIn .draining).bits ++ List.replicate 7 true).length < 8
      ∧ 8 < ((portIn .draining).bits ++ List.replicate 9 true).length ∧ ([0x40, 0, 0x33] : List Byte)[0]? = some 0x40 :=
  ⟨.inr (.inr (.inl ⟨.readStatus, rfl⟩)), .inr (.inr (.inr ⟨.inr rfl, rfl⟩)), by decide +kernel⟩

/-- The clauses: no byte yet; the kind alone; a length of 1 with no parameter and with its one parameter. -/
theorem witness_RequestBytesAreHeld :
    Clocked 0x13 (byteBits 0x13) (demo .opened stopped up (portIn (.receiving Frame.empty)))
      ∧ (demo .opened stopped up (portIn (.receiving Frame.empty))).hp.trans = .receiving ⟨none, none, [], 0⟩
      ∧ (demo .opened stopped up (portIn (.receiving ⟨some 0x13, none, [], crc8 [0x13]⟩))).hp.trans
        = .receiving ⟨some 0x13, none, [], crc8 [0x13]⟩
      ∧ ([] : List Byte).length < (1 : Byte).toNat ∧ ([0] : List Byte).length = (1 : Byte).toNat
      ∧ (demo .opened stopped up (portIn (.receiving Frame.empty))).hp.softResetDue = false :=
  ⟨clocked_whole _ _ rfl rfl rfl, by decide +kernel⟩

/-- The clauses: the first byte of three, the last, and the three states in which a byte is ignored. -/
theorem witness_ReplyBytesLeaveInOrder :
    let reply : List Byte := [0x40, 0, 0x33]
    clocksPort .replyByteShifted (demo .opened stopped up (portIn .draining)).restOfByte
        (demo .opened stopped up (portIn .draining))
      ∧ ((portIn (.replying reply 0 false)).select = .asserted ∧ (portIn (.replying reply 0 false)).resetLine = .released
        ∧ (portIn (.replying reply 0 false)).bits.length < 8)
      ∧ Clocked 0 (byteBits 0) (demo .opened stopped up (portIn (.replying reply 0 false)))
      ∧ Clocked 0 (byteBits 0) (demo .opened stopped up (portIn .draining))
      ∧ (demo .opened stopped up (portIn (.replying reply 0 false))).hp.trans = .replying reply 0 false
      ∧ reply[0]? = some 0x40 ∧ 0 + 1 < reply.length ∧ reply[1]? = some 0 ∧ 1 + 1 < reply.length
      ∧ reply[2]? = some 0x33 ∧ 2 + 1 = reply.length
      ∧ rest.hp.trans = .idle ∧ (portIn .draining).trans = .draining ∧ (portIn .held).trans = .held :=
  ⟨.inr (.inr (.inr ⟨.inl rfl, rfl⟩)), by decide +kernel, clocked_whole _ _ rfl rfl rfl, clocked_whole _ _ rfl rfl rfl,
    by decide +kernel⟩

/-! ### Witnesses: the requests -/

/-- A descriptor that is read. -/
def goodDescriptor : List Byte := [0x20, 0, 0, 0, 8, 0, 8, 0, 0, 0, 0, 8, 8, 0, 0, 0, 0, 0, 0, 0]

/-- The demo state with a staging list of this length. -/
def listed (n : Nat) : State :=
  rest.setCsu { rest.csu with changes := (List.range n).map fun i => ⟨i, ⟨0, 0⟩, .lock⟩ }

/-- The demo state with a PENDING set. -/
def pendingState : State := demo .pending (scanAt .running (.before 0) none false false) up quiet

/-- The demo state with every slot LIVE. -/
def fullTable : State := rest.setSlots (tabulate fun _ => slotAt (table TouchPart.cleared) 4)

/-- The clauses: PENDING; 16 records; a descriptor of zeros; no FREE slot with 15 records; and a FREE slot, the lowest being 5. -/
theorem witness_CreateReservesLowestFreeSlot :
    Presented .create goodDescriptor (checkBits .create goodDescriptor) (presenting .create goodDescriptor (listed 15))
      ∧ pendingState.csu.setState = .pending ∧ (listed 16).csu.setState = .opened ∧ 16 ≤ (listed 16).csu.changes.length
      ∧ (listed 15).csu.changes.length < 16 ∧ readDescriptor (zeros .create) = none
      ∧ (readDescriptor goodDescriptor).isSome = true
      ∧ (∀ i : Fin 32, (slotAt fullTable.rgt.slots i).state ≠ .free)
      ∧ (slotAt (listed 15).rgt.slots 5).state = .free
      ∧ ∀ j : Fin 32, j < 5 → (slotAt (listed 15).rgt.slots j).state ≠ .free :=
  ⟨presented_presenting _ _ _ (by decide +kernel) rfl, by decide +kernel⟩

/-- The four requests are presented, and each branch of their checks is reached: PENDING, 16 records, no payload, a stale target, a
locked target, and a good one with 15 records. -/
theorem witness_StagingRequestsAddRecords :
    Presented .amend (zeros .amend) (checkBits .amend (zeros .amend)) (presenting .amend (zeros .amend) rest)
      ∧ Presented .retire [0x24] (checkBits .retire [0x24]) (presenting .retire [0x24] (listed 15))
      ∧ Presented .restack [0, 3, 0x24] (checkBits .restack [0, 3, 0x24]) (presenting .restack [0, 3, 0x24] (listed 16))
      ∧ Presented .lock [7] (checkBits .lock [7]) (presenting .lock [7] rest)
      ∧ pendingState.csu.setState = .pending ∧ 16 ≤ (listed 16).csu.changes.length ∧ (listed 15).csu.changes.length < 16
      ∧ readGroup (zeros .amend) = none ∧ isCurrent rest.rgt.slots (Handle.ofByte 7) = false
      ∧ isCurrent rest.rgt.slots (Handle.ofByte 0x24) = true ∧ (slotAt rest.rgt.slots 1).record.locked = true
      ∧ readGroup [0, 1, 199, 3, 31, 1, 0, 1, 0, 0] = some (.geometry ⟨199, 799, 1, 1⟩)
      ∧ readGroup [0, 2, 0x40, 0, 1, 0, 15, 255, 0, 0] = some (.source ⟨.bitmap, 256, 4095, 1, 0⟩)
      ∧ readGroup [0, 3, 0, 0, 1, 31, 0, 0, 0, 0] = some (.scroll 1 31)
      ∧ readGroup [0, 4, 0x28, 0, 0, 0, 0, 0, 0, 0] = some (.look ⟨true, false, true⟩)
      ∧ readGroup [0, 5, 0x81, 0, 0, 2, 0, 31, 0, 0] = some (.cursor (some ⟨2, 0, 31, .slow⟩))
      ∧ readGroup [0, 6, 2, 0, 0, 0, 0, 0, 0, 0] = some (.touch .block) ∧ readGroup [0, 7, 0, 0, 0, 0, 0, 0, 0, 0] = none
      ∧ readPosition [0, 4, 1] = some (.below ⟨1, 0⟩) ∧ readPosition [1, 4, 1] = none ∧ readPosition [1, 2, 1] = some .back
      ∧ readPosition [0, 5, 1] = none :=
  ⟨presented_presenting _ _ _ (by decide +kernel) rfl, presented_presenting _ _ _ (by decide +kernel) rfl,
    presented_presenting _ _ _ (by decide +kernel) rfl, presented_presenting _ _ _ (by decide +kernel) rfl, by decide +kernel⟩

theorem witness_ChangeSetRequests :
    Presented .publish [] (checkBits .publish []) (presenting .publish [] rest)
      ∧ Presented .publish [] (checkBits .publish []) (presenting .publish [] pendingState)
      ∧ Presented .withdraw [] (checkBits .withdraw []) (presenting .withdraw [] pendingState)
      ∧ Presented .discard [] (checkBits .discard []) (presenting .discard [] rest)
      ∧ Presented .readOutcome [] (checkBits .readOutcome []) (presenting .readOutcome [] rest)
      ∧ rest.csu.setState = .opened ∧ rest.se.scan = .stopped ∧ pendingState.csu.setState = .pending
      ∧ busy.csu.setState = .opened ∧ busy.se.scan ≠ .stopped :=
  ⟨presented_presenting _ _ _ (by decide +kernel) rfl, presented_presenting _ _ _ (by decide +kernel) rfl,
    presented_presenting _ _ _ (by decide +kernel) rfl, presented_presenting _ _ _ (by decide +kernel) rfl,
    presented_presenting _ _ _ (by decide +kernel) rfl, by decide +kernel⟩

theorem witness_TableAndGuardRequests :
    Presented .readRegion [0x24] (checkBits .readRegion [0x24]) (presenting .readRegion [0x24] rest)
      ∧ Presented .readStack [] (checkBits .readStack []) (presenting .readStack [] rest)
      ∧ Presented .guardOn [] (checkBits .guardOn []) (presenting .guardOn [] rest)
      ∧ Presented .guardOff [] (checkBits .guardOff []) (presenting .guardOff [] guarded)
      ∧ isCurrent rest.rgt.slots (Handle.ofByte 0x24) = true ∧ isCurrent rest.rgt.slots (Handle.ofByte 0x04) = false
      ∧ guarded.rgt.guardLine = .asserted ∧ rest.rgt.guardLine = .released :=
  ⟨presented_presenting _ _ _ (by decide +kernel) rfl, presented_presenting _ _ _ (by decide +kernel) rfl,
    presented_presenting _ _ _ (by decide +kernel) rfl, presented_presenting _ _ _ (by decide +kernel) rfl, by decide +kernel⟩

/-- Timing sets at the two ends of R80's ranges, which the table of the demo state fits. -/
def leastTiming : List Byte := [8, 12, 8, 0, 10, 0, 8, 0, 0, 0, 0, 8]
/-- The greatest values. -/
def greatestTiming : List Byte := [16, 255, 200, 3, 255, 3, 32, 255, 255, 255, 15, 255]

/-- The good fields of SET TIMING. -/
def goodFields (s : State) (t : Timing) : Bool :=
  decide ((t.cellWidth = 8 ∨ t.cellWidth = 16) ∧ 12 ≤ t.totalColumns ∧ t.totalColumns ≤ 255
    ∧ 8 ≤ t.displayedColumns ∧ t.displayedColumns + 4 ≤ t.totalColumns ∧ t.displayedColumns ≤ 200
    ∧ 8 ≤ t.displayedLines ∧ t.displayedLines ≤ 800 ∧ t.displayedLines + 2 ≤ t.totalLines ∧ t.totalLines ≤ 1023
    ∧ 1 ≤ t.fallbackStride ∧ t.fallbackStride ≤ 4095 ∧ t.displayedColumns ≤ t.fallbackStride
    ∧ ∀ i : Fin 32, (slotAt s.rgt.slots i).state ≠ .free →
        (slotAt s.rgt.slots i).record.rect.left + (slotAt s.rgt.slots i).record.rect.width ≤ t.displayedColumns
          ∧ (slotAt s.rgt.slots i).record.rect.top + (slotAt s.rgt.slots i).record.rect.height ≤ t.displayedLines)

theorem witness_ScanRequests :
    Presented .setTiming leastTiming (checkBits .setTiming leastTiming) (presenting .setTiming leastTiming rest)
      ∧ Presented .readTiming [] (checkBits .readTiming []) (presenting .readTiming [] rest)
      ∧ Presented .startScan [] (checkBits .startScan []) (presenting .startScan [] rest)
      ∧ Presented .stopScan [] (checkBits .stopScan []) (presenting .stopScan [] busy)
      ∧ goodFields rest (readTimingFields leastTiming) = true ∧ goodFields rest (readTimingFields greatestTiming) = true
      ∧ goodFields rest (readTimingFields (zeros .setTiming)) = false ∧ busy.se.scan = .running ∧ busy.se.place = .inLine 1
      ∧ rest.se.timingValid = true ∧ State.reset.se.timingValid = false
      ∧ (scanAt .running .outside none false false).scan = .running
      ∧ (scanAt .stopping (.retrace 0) (some .lastLineEnd) false false).scan = .stopping :=
  ⟨presented_presenting _ _ _ (by decide +kernel) rfl, presented_presenting _ _ _ (by decide +kernel) rfl,
    presented_presenting _ _ _ (by decide +kernel) rfl, presented_presenting _ _ _ (by decide +kernel) rfl, by decide +kernel⟩

/-- The clauses: an enable byte of 2, timeouts 0 and 16, 1 and 15; the pointer disabled with and without a capture; a region with a touch
part, without one, and a stale handle; a probe inside and outside the area. -/
theorem witness_PointerRequests :
    Presented .pointerSettings [0, 15] (checkBits .pointerSettings [0, 15]) (presenting .pointerSettings [0, 15] busy)
      ∧ Presented .readTouch [0] (checkBits .readTouch [0]) (presenting .readTouch [0] rest)
      ∧ Presented .probe [7, 0, 7] (checkBits .probe [7, 0, 7]) (presenting .probe [7, 0, 7] rest)
      ∧ (byteAt [2, 1] 0 ≠ 0 ∧ byteAt [2, 1] 0 ≠ 1) ∧ (byteAt [1, 0] 1).toNat = 0 ∧ 15 < (byteAt [1, 16] 1).toNat
      ∧ 1 ≤ (byteAt [0, 1] 1).toNat ∧ (byteAt [0, 15] 1).toNat ≤ 15 ∧ State.reset.pu.enable = false
      ∧ busy.pu.enable = true ∧ busy.pu.contact = .captured ⟨0, 0⟩ ∧ rest.pu.enable = true ∧ rest.pu.contact = .up
      ∧ (slotAt rest.rgt.slots 0).touch = some TouchPart.cleared ∧ (slotAt rest.rgt.slots 4).touch = none
      ∧ isCurrent rest.rgt.slots ⟨0, 0⟩ = true ∧ isCurrent rest.rgt.slots ⟨4, 1⟩ = true ∧ isCurrent rest.rgt.slots ⟨4, 0⟩ = false
      ∧ rest.se.timingValid = true ∧ 7 < rest.se.timing.displayedColumns ∧ 7 < rest.se.timing.displayedLines
      ∧ ¬8 < rest.se.timing.displayedColumns :=
  ⟨presented_presenting _ _ _ (by decide +kernel) rfl, presented_presenting _ _ _ (by decide +kernel) rfl,
    presented_presenting _ _ _ (by decide +kernel) rfl, by decide +kernel⟩

theorem witness_StatusRequests :
    Presented .readStatus [] (checkBits .readStatus []) (presenting .readStatus [] faulty)
      ∧ Presented .setNoteMask [1, 1, 0] (checkBits .setNoteMask [1, 1, 0]) (presenting .setNoteMask [1, 1, 0] rest)
      ∧ Presented .softReset [] (checkBits .softReset []) (presenting .softReset [] rest)
      ∧ (∀ i, i < 3 → byteAt [1, 1, 0] i = 0 ∨ byteAt [1, 1, 0] i = 1)
      ∧ (∃ i, i < 3 ∧ byteAt [0, 0, 2] i ≠ 0 ∧ byteAt [0, 0, 2] i ≠ 1) :=
  ⟨presented_presenting _ _ _ (by decide +kernel) rfl, presented_presenting _ _ _ (by decide +kernel) rfl,
    presented_presenting _ _ _ (by decide +kernel) rfl, by decide, ⟨2, by decide⟩⟩

/-! ### Witnesses: the scan -/

/-- The clauses: STOPPED; RUNNING at both places of a frame start; and the set OPEN and PENDING. -/
theorem witness_FrameStartOpensAFrame :
    rest.hp.softResetDue = false ∧ rest.se.scan = .stopped
      ∧ (demo .pending (scanAt .running .outside none false false) up quiet).se.place = .outside
      ∧ (demo .pending (scanAt .running .outside none false false) up quiet).csu.setState = .pending
      ∧ (demo .opened (scanAt .running (.retrace 2) none false false) up quiet).se.place
        = .retrace (smallTiming.totalLines - smallTiming.displayedLines)
      ∧ (demo .opened (scanAt .running (.retrace 2) none false false) up quiet).csu.setState = .opened := by decide +kernel

/-- The clauses: UP; unclaimed short of the timeout of 3 and at it; captured at it; captured short of it with fallback effective and an
ORDINARY region, and without. -/
theorem witness_TickAdvancesSilenceAndJudgesCapture :
    (owed false .up 0).hp.softResetDue = false ∧ (owed false .up 0).se.tickOwed = true ∧ (owed false .up 0).pu.contact = .up
      ∧ (owed false .unclaimed 1).pu.silence + 1 < (owed false .unclaimed 1).pu.timeout
      ∧ (owed false .unclaimed 2).pu.timeout ≤ (owed false .unclaimed 2).pu.silence + 1
      ∧ (owed false (.captured ⟨0, 0⟩) 2).pu.contact = .captured ⟨0, 0⟩
      ∧ (owed true (.captured ⟨0, 0⟩) 1).se.fallbackEffective = true
      ∧ classOf (owed true (.captured ⟨0, 0⟩) 1).rgt.slots ⟨0, 0⟩ = .ordinary
      ∧ (owed false (.captured ⟨0, 0⟩) 1).se.fallbackEffective = false := by decide +kernel

/-- The demo state in a line with so many cells issued. -/
def inLine (y column : Nat) : State :=
  let s := demo .opened (scanAt .running (.inLine y) none false false) up quiet
  s.setLc { s.lc with column := column }

/-- The clauses: before the first line; at the first and the last cell of a line, and with a cell half shifted; and after the last
cell. -/
theorem witness_LineIsComposedCellByCell :
    (owed false .up 0).se.scan ≠ .stopped ∧ (demo .opened (scanAt .running (.before 0) none false false) up quiet).se.place = .before 0
      ∧ (demo .opened (scanAt .running (.before 0) none false false) up quiet).se.tickOwed = false
      ∧ (inLine 0 0).Inv ∧ (inLine 7 7).Inv ∧ busy.Inv ∧ (inLine 7 7).se.place = .inLine 7
      ∧ (inLine 7 7).lc.column < (inLine 7 7).se.timing.displayedColumns
      ∧ (inLine 7 8).lc.column = (inLine 7 8).se.timing.displayedColumns :=
  ⟨by decide +kernel, by decide +kernel, by decide +kernel, State.inv_of_lawful (by decide +kernel),
    State.inv_of_lawful (by decide +kernel), State.inv_of_lawful busy_lawful, by decide +kernel, by decide +kernel,
    by decide +kernel⟩

/-- The clauses: the first and the last retrace line; the stop point at each of its places, with the set OPEN and PENDING. -/
theorem witness_RetraceAndStopPoint :
    rest.hp.softResetDue = false ∧ 0 < smallTiming.totalLines - smallTiming.displayedLines
      ∧ 1 < smallTiming.totalLines - smallTiming.displayedLines
      ∧ (demo .opened (scanAt .running (.retrace 1) none false false) up quiet).se.scan ≠ .stopped
      ∧ (demo .pending (scanAt .stopping (.retrace 0) (some .lastLineEnd) false false) up quiet).se.stop = some .lastLineEnd
      ∧ (demo .opened (scanAt .stopping .outside (some .nextFrameStart) false false) up quiet).se.place = .outside
      ∧ (demo .opened (scanAt .stopping (.retrace 2) (some .nextFrameStart) false false) up quiet).se.place
        = .retrace (smallTiming.totalLines - smallTiming.displayedLines) := by decide +kernel

/-! ### Witnesses: the pointer -/

theorem witness_ReceiverFramesCharacters :
    rest.hp.softResetDue = false ∧ rest.pu.receiver = .waiting
      ∧ (reported [1, 1, 0] .up).pu.receiver = .collecting [1, 1, 0] ∧ ([1, 1, 0] : List Byte).length < 4
      ∧ (prx 1 true true).getLsbD 0 = false ∧ noStart.getLsbD 0 = true := by decide +kernel

/-- The clauses: a pointer that listens and one that does not; a good sum and a bad one; a known kind and 3; the last point of the area
and one beyond it. -/
theorem witness_ReportsAreJudged :
    (reported [1, 7, 0, 7] .up).pu.receiver = .collecting [1, 7, 0, 7] ∧ (reported [1, 7, 0, 7] .up).hp.softResetDue = false
      ∧ (reported [1, 7, 0, 7] .up).pu.enable = true ∧ (reported [1, 7, 0, 7] .up).hp.resetLine = .released
      ∧ State.reset.pu.enable = false ∧ (15 : Byte) = 1 + 7 + 0 + 7 ∧ (14 : Byte) ≠ 1 + 7 + 0 + 7
      ∧ ¬((3 : Byte) = 1 ∨ (3 : Byte) = 2) ∧ (7 : Byte).toNat < smallTiming.displayedColumns
      ∧ (0 : Byte).toNat * 256 + (7 : Byte).toNat < smallTiming.displayedLines
      ∧ ¬(8 : Byte).toNat < smallTiming.displayedColumns := by decide +kernel

/-- The clauses: a CONTACT that hits, one that finds none, one while captured and one unclaimed; and a LIFT in each contact state, inside
the region at its corner and outside it. -/
theorem witness_TakenReportsActOnTheContact :
    let s := reported [1, 3, 0, 3] .up
    let inside (x y : Nat) : Bool := (slotAt s.rgt.slots 0).record.rect.contains x y
    s.hp.softResetDue = false ∧ s.pu.enable = true ∧ s.hp.resetLine = .released ∧ s.se.timingValid = true
      ∧ (3 : Byte).toNat < s.se.timing.displayedColumns ∧ (0 : Byte).toNat * 256 + (3 : Byte).toNat < s.se.timing.displayedLines
      ∧ s.pu.receiver = .collecting [1, 3, 0, 3] ∧ s.pu.contact = .up ∧ hitTest s ⟨3, 3⟩ = .hit ⟨0, 0⟩
      ∧ hitTest s ⟨4, 0⟩ = .none ∧ (reported [1, 3, 0, 3] (.captured ⟨0, 0⟩)).pu.contact = .captured ⟨0, 0⟩
      ∧ (reported [2, 3, 0, 3] .unclaimed).pu.contact = .unclaimed
      ∧ (reported [2, 3, 0, 3] .unclaimed).pu.receiver = .collecting [2, 3, 0, 3]
      ∧ inside 3 3 = true ∧ inside 4 3 = false := by decide +kernel

/-- The clauses, in order: STOPPED with no tick owed; the places of a running and a stopping scan; the receiver; and the port. -/
theorem witness_RowsOutOfPlace :
    rest.hp.softResetDue = false ∧ rest.se.scan = .stopped ∧ rest.se.tickOwed = false
      ∧ busy.se.scan = .running ∧ busy.se.place = .inLine 1 ∧ busy.se.tickOwed = false
      ∧ busy.lc.column ≠ busy.se.timing.displayedColumns ∧ (inLine 7 8).se.timing.displayedColumns ≤ (inLine 7 8).lc.column
      ∧ (owed false .up 0).se.tickOwed = true ∧ (owed false .up 0).se.scan ≠ .stopped
      ∧ (demo .opened (scanAt .running (.retrace 1) none false false) up quiet).se.place = .retrace 1
      ∧ 1 ≠ smallTiming.totalLines - smallTiming.displayedLines
      ∧ (demo .opened (scanAt .running (.retrace 2) none false false) up quiet).se.place = .retrace 2
      ∧ smallTiming.totalLines - smallTiming.displayedLines ≤ 2
      ∧ (scanAt .stopping (.retrace 0) (some .lastLineEnd) false false).stop = some .lastLineEnd
      ∧ (scanAt .stopping (.retrace 1) (some .nextFrameStart) false false).stop = some .nextFrameStart
      ∧ (scanAt .stopping (.retrace 1) (some .nextFrameStart) false false).place = .retrace 1
      ∧ rest.pu.receiver = .waiting ∧ (reported [1, 1, 0] .up).pu.receiver = .collecting [1, 1, 0]
      ∧ (reported [1, 1, 0, 2] .up).pu.receiver = .collecting [1, 1, 0, 2] ∧ 4 ≤ ([1, 1, 0, 2] : List Byte).length
      ∧ (portIn (.replying [0x40, 0, 0x33] 2 false)).trans = .replying [0x40, 0, 0x33] 2 false
      ∧ (portIn (.receiving Frame.empty)).trans = .receiving Frame.empty ∧ Frame.empty.kind = none
      ∧ (presenting .retire [0] rest).hp.trans = .receiving (frameOf .retire [0])
      ∧ ((portIn (.receiving Frame.empty)).select = .asserted ∧ (portIn (.receiving Frame.empty)).resetLine = .released
        ∧ (portIn (.receiving Frame.empty)).bits ++ byteBits 0 = byteBits 0) := by decide +kernel

end Sys2Proof.Tests
end

section
/-! PROOFS. The requests that RGT answers about its table and its guard setting (R23, R38, R69, R70), and the bytes of a READ REGION
reply (R187). -/

namespace Sys2Proof.Machine
open Sys2Proof

/-! ### The bytes of a READ REGION reply (R187) -/

/-- The three high bits of a byte, read as a number. -/
theorem ofBits_three_high_bits (a b c : Bool) :
    ofBits [a, b, c, false, false, false, false, false]
      = BitVec.ofNat 8 (128 * a.toNat + 64 * b.toNat + if c = true then 32 else 0) := by
  cases a <;> cases b <;> cases c <;> decide

/-- The code of the state of a slot that is in use: 2 for LIVE, else 1. -/
theorem slotStateByte_of_ne_free {st : SlotState} (h : st ≠ .free) : slotStateByte st = if st = .live then 2 else 1 := by
  cases st with
  | free => exact absurd rfl h
  | reserved => rfl
  | live => rfl

/-- The 24 bytes of a slot in use: handle, state, descriptor, flags and position (R187). -/
theorem regionBytes_of_ne_free (h : Handle) {x : Slot} (position : Nat) (hx : x.state ≠ .free) :
    regionBytes h x position =
      h.toByte :: (if x.state = .live then 2 else 1) :: (descriptorBytes x.record ++
        [BitVec.ofNat 8 (128 * x.record.locked.toNat + 64 * x.touch.isSome.toNat + if x.state = .live then 32 else 0),
          if x.state = .live then BitVec.ofNat 8 position else 0xFF]) := by
  simp only [regionBytes, slotStateByte_of_ne_free hx, ofBits_three_high_bits, beq_iff_eq, List.cons_append]

/-! ### The answers of RGT -/

/-- READ REGION of a current handle: DONE with the region's bytes (R23). -/
theorem readRegionRequest_of_current {p : List Byte} {s : State} (h : isCurrent s.rgt.slots (readHandle p) = true) :
    readRegionRequest p s =
      ⟨s, .done, regionBytes (readHandle p) (slotAt s.rgt.slots (readHandle p).slot) (s.rgt.stack.idxOf (readHandle p))⟩ :=
  if_pos h

/-- READ REGION of a stale handle: STALE (R23). -/
theorem readRegionRequest_of_stale {p : List Byte} {s : State} (h : isCurrent s.rgt.slots (readHandle p) = false) :
    readRegionRequest p s = .refuse s .stale :=
  if_neg (Bool.eq_false_iff.1 h)

/-- GUARD OFF with the GUARD line asserted: GUARDED, whatever the setting (R70). -/
theorem guardOffRequest_of_asserted (p : List Byte) {s : State} (h : s.rgt.guardLine = .asserted) :
    guardOffRequest p s = .refuse s .guarded :=
  if_pos h

/-- GUARD OFF with the GUARD line released turns the setting off (R70). -/
theorem guardOffRequest_of_released (p : List Byte) {s : State} (h : s.rgt.guardLine = .released) :
    guardOffRequest p s = ⟨s.setRgt { s.rgt with guardEnable := false }, .done, []⟩ :=
  if_neg (by simp [h])

/-- Settles O49: each request row answers as its owner does, and the owner's answer is known in each case of its one check. -/
theorem tableAndGuardRequests : Obligations.TableAndGuardRequests := by
  intro p sdi s
  refine ⟨fun h => ⟨fun hcur => ?current, fun hstale => ?stale⟩, fun g x position hx => ?bytes, fun h => ?stack,
    fun h => ?guardOn, fun h => ⟨fun hline => ?asserted, fun hline => ?released⟩⟩
  case current => exact exec_row_answered h (by decide) (readRegionRequest_of_current hcur)
  case stale => exact exec_row_refused h (by decide) (readRegionRequest_of_stale hstale)
  case bytes => exact regionBytes_of_ne_free g position hx
  case stack => exact exec_row_answered (a := readStackRequest p s) h (by decide) rfl
  case guardOn => exact exec_row_answered (a := guardOnRequest p s) h (by decide) rfl
  case asserted => exact exec_row_refused h (by decide) (guardOffRequest_of_asserted p hline)
  case released => exact exec_row_answered h (by decide) (guardOffRequest_of_released p hline)

end Sys2Proof.Machine
end

section
/-! PROOFS. The requests that CSU answers about the whole change set (R43, R50, R51, R52, R54, R60, R63), and the bytes of a READ OUTCOME
reply (R187). -/

namespace Sys2Proof.Machine
open Sys2Proof

/-! ### The answers of CSU -/

/-- PUBLISH of a set that is PENDING already: BUSY. -/
theorem publishRequest_of_pending (p : List Byte) {s : State} (h : s.csu.setState = .pending) :
    publishRequest p s = .refuse s .busy :=
  if_pos h

/-- PUBLISH while a scan is in progress: the set is numbered and waits for its apply point (R43, R51). -/
theorem publishRequest_of_scanning (p : List Byte) {s : State} (h : s.csu.setState = .opened) (hscan : s.se.scan ≠ .stopped) :
    publishRequest p s =
      ⟨s.setCsu { s.csu with seq := s.csu.seq + 1, setState := .pending }, .done, [s.csu.seq + 1, 0]⟩ := by
  have hopen : s.csu.setState ≠ .pending := by simp [h]
  rw [publishRequest, if_neg hopen, if_neg hscan]
  rfl

/-- PUBLISH while the scan is STOPPED: the set is numbered and evaluated within the request (R43, R54). -/
theorem publishRequest_of_stopped (p : List Byte) {s : State} (h : s.csu.setState = .opened) (hscan : s.se.scan = .stopped) :
    publishRequest p s =
      ⟨applySet (s.setCsu { s.csu with seq := s.csu.seq + 1 }), .done, [s.csu.seq + 1, 1]⟩ := by
  have hopen : s.csu.setState ≠ .pending := by simp [h]
  rw [publishRequest, if_neg hopen, if_pos hscan]

/-- WITHDRAW of a PENDING set abandons it as WITHDRAWN (R60). -/
theorem withdrawRequest_of_pending (p : List Byte) {s : State} (h : s.csu.setState = .pending) :
    withdrawRequest p s = ⟨abandonSet .withdrawn s, .done, []⟩ :=
  if_pos h

/-- WITHDRAW in OPEN: TOO_LATE (R60). -/
theorem withdrawRequest_of_opened (p : List Byte) {s : State} (h : s.csu.setState = .opened) :
    withdrawRequest p s = .refuse s .tooLate :=
  if_neg (by simp [h])

/-- DISCARD of a PENDING set: BUSY (R50). -/
theorem discardRequest_of_pending (p : List Byte) {s : State} (h : s.csu.setState = .pending) :
    discardRequest p s = .refuse s .busy :=
  if_pos h

/-- DISCARD in OPEN releases the list's reservations and empties the list (R50). -/
theorem discardRequest_of_opened (p : List Byte) {s : State} (h : s.csu.setState = .opened) :
    discardRequest p s =
      ⟨(s.setSlots (releaseReservations s.rgt.slots s.csu.changes)).setCsu { s.csu with changes := [] }, .done, []⟩ :=
  if_neg (by simp [h])

/-- Settles O48: each request row answers as CSU does, CSU's answer is known in each set state (and, for PUBLISH, each scan state), and
the outcome's bytes are read off result by result. -/
theorem changeSetRequests : Obligations.ChangeSetRequests := by
  intro p sdi s
  refine ⟨fun h => ⟨fun hset => ?publishPending, fun hset hscan => ?publishScanning, fun hset hscan => ?publishStopped⟩,
    fun h => ⟨fun hset => ?withdrawPending, fun hset => ?withdrawOpened⟩,
    fun h => ⟨fun hset => ?discardPending, fun hset => ?discardOpened⟩, fun h => ?readOutcome, fun o => ?bytes,
    fun i => ?released⟩
  case publishPending => exact exec_row_refused h (by decide) (publishRequest_of_pending p hset)
  case publishScanning => exact exec_row_answered h (by decide) (publishRequest_of_scanning p hset hscan)
  case publishStopped => exact exec_row_answered h (by decide) (publishRequest_of_stopped p hset hscan)
  case withdrawPending => exact exec_row_answered h (by decide) (withdrawRequest_of_pending p hset)
  case withdrawOpened => exact exec_row_refused h (by decide) (withdrawRequest_of_opened p hset)
  case discardPending => exact exec_row_refused h (by decide) (discardRequest_of_pending p hset)
  case discardOpened => exact exec_row_answered h (by decide) (discardRequest_of_opened p hset)
  case readOutcome => exact exec_row_answered (a := readOutcomeRequest p s) h (by decide) rfl
  case bytes =>
    obtain ⟨seq, result, count⟩ := o
    cases result with
    | rejected index code => cases code <;> rfl
    | none | applied | withdrawn | discarded => rfl
  case released => exact slotAt_releaseReservations s.rgt.slots s.csu.changes i

end Sys2Proof.Machine
end

section
/-! PROOFS. What each operation on the region table does to a LIVE region that is locked (R75): the operations of PU change touch parts only,
a reservation is made of a FREE slot and released from a RESERVED one, an evaluation changes no locked target (R56), and no reset retires
a locked region (R26). The rows are joined to these by the table that each of them ends with. -/

namespace Sys2Proof.Machine
open Sys2Proof

/-! ### Tables that differ in touch parts only -/

/-- The second table has the first one's states, generations and records. -/
def SameRegions (t u : SlotTable) : Prop :=
  ∀ i : Fin 32, ∃ q : Option TouchPart, slotAt u i = { slotAt t i with touch := q }

theorem SameRegions.refl (t : SlotTable) : SameRegions t t := fun i => ⟨(slotAt t i).touch, rfl⟩

theorem SameRegions.trans {t u v : SlotTable} (htu : SameRegions t u) (huv : SameRegions u v) : SameRegions t v := by
  intro i
  obtain ⟨p, hp⟩ := htu i
  obtain ⟨q, hq⟩ := huv i
  exact ⟨q, by rw [hq, hp]⟩

theorem SameRegions.state_eq {t u : SlotTable} (h : SameRegions t u) (i : Fin 32) : (slotAt u i).state = (slotAt t i).state := by
  obtain ⟨q, hq⟩ := h i
  rw [hq]

theorem sameRegions_mapTouch (t : SlotTable) (i : Fin 32) (f : TouchPart → TouchPart) : SameRegions t (mapTouch t i f) := by
  intro j
  rw [slotAt_mapTouch]
  split
  · exact ⟨_, rfl⟩
  · exact ⟨_, rfl⟩

/-! ### What PU does to the table -/

theorem cancelCapture_sameRegions (cause : CancelCause) (s : State) : SameRegions s.rgt.slots (cancelCapture cause s).rgt.slots := by
  rcases cancelCapture_cases cause s with ⟨heq, -⟩ | ⟨h, -, heq⟩ <;> rw [heq]
  · exact .refl _
  · exact sameRegions_mapTouch _ _ _

theorem takeNotice_sameRegions (dropped : List (Fin 32)) (s : State) :
    SameRegions s.rgt.slots (takeNotice dropped s).rgt.slots := by
  rcases takeNotice_cases dropped s with heq | ⟨h, cause, -, -, heq⟩ <;> rw [heq]
  · exact .refl _
  · exact cancelCapture_sameRegions cause s

theorem takeTick_sameRegions (s : State) : SameRegions s.rgt.slots (takeTick s).rgt.slots := by
  rcases hc : s.pu.contact with _ | h | _
  · rw [takeTick_of_up hc]; exact .refl _
  · rw [takeTick_of_captured hc]
    split_ifs
    · exact sameRegions_mapTouch _ _ _
    · exact sameRegions_mapTouch _ _ _
    · exact .refl _
  · rw [takeTick_of_unclaimed hc]; exact .refl _

theorem pointerReset_sameRegions (s : State) : SameRegions s.rgt.slots (pointerReset s).rgt.slots :=
  (cancelCapture_sameRegions .reset s).trans fun i => ⟨_, slotAt_tabulate _ i⟩

theorem takeContact_sameRegions (p : Point) (s : State) : SameRegions s.rgt.slots (takeContact p s).rgt.slots := by
  unfold takeContact
  split
  · split
    · exact sameRegions_mapTouch _ _ _
    · exact .refl _
    · exact .refl _
  · exact sameRegions_mapTouch _ _ _
  · exact .refl _

theorem takeLift_sameRegions (p : Point) (s : State) : SameRegions s.rgt.slots (takeLift p s).rgt.slots := by
  unfold takeLift
  split
  · exact .refl _
  · exact sameRegions_mapTouch _ _ _
  · exact .refl _

theorem reportEffect_sameRegions (v : ReportVerdict) (s : State) : SameRegions s.rgt.slots (reportEffect v s).rgt.slots := by
  unfold reportEffect
  split
  · exact .refl _
  · exact .refl _
  · exact .refl _
  · exact takeContact_sameRegions _ _
  · exact takeLift_sameRegions _ _

theorem pointerSettingsRequest_sameRegions (p : List Byte) (s : State) :
    SameRegions s.rgt.slots (pointerSettingsRequest p s).state.rgt.slots := by
  unfold pointerSettingsRequest
  split
  · exact .refl _
  · dsimp only
    split
    · exact cancelCapture_sameRegions .disabled s
    · exact .refl _

theorem readTouchRequest_sameRegions (p : List Byte) (s : State) :
    SameRegions s.rgt.slots (readTouchRequest p s).state.rgt.slots := by
  unfold readTouchRequest
  dsimp only
  split
  · split
    · exact sameRegions_mapTouch _ _ _
    · exact .refl _
  · exact .refl _

/-- A cancellation leaves the change set as it is (R149). -/
theorem cancelCapture_csu (cause : CancelCause) (s : State) : (cancelCapture cause s).csu = s.csu := by
  rcases cancelCapture_cases cause s with ⟨heq, -⟩ | ⟨h, -, heq⟩ <;> rw [heq]
  rfl

/-- PU's tick leaves the change set as it is (R146). -/
theorem takeTick_csu (s : State) : (takeTick s).csu = s.csu := by
  rcases hc : s.pu.contact with _ | h | _
  · rw [takeTick_of_up hc]; rfl
  · rw [takeTick_of_captured hc]; split_ifs <;> rfl
  · rw [takeTick_of_unclaimed hc]; rfl

/-! ### Locked regions held -/

/-- R75: if the first slot is a locked LIVE region, the second is that region, its touch part apart. -/
def Slot.HeldAs (x y : Slot) : Prop :=
  x.state = .live → x.record.locked = true → y.state = .live ∧ y.gen = x.gen ∧ y.record = x.record

/-- R75, of every slot of a table. -/
def HoldsLocked (t u : SlotTable) : Prop := ∀ i : Fin 32, (slotAt t i).HeldAs (slotAt u i)

theorem Slot.HeldAs.refl (x : Slot) : x.HeldAs x := fun hlive _ => ⟨hlive, rfl, rfl⟩

theorem Slot.heldAs_of_not_live {x : Slot} (h : x.state ≠ .live) (y : Slot) : x.HeldAs y := fun hlive _ => absurd hlive h

theorem Slot.heldAs_of_not_locked {x : Slot} (h : x.record.locked = false) (y : Slot) : x.HeldAs y :=
  fun _ hlocked => absurd hlocked (by simp [h])

/-- A LOCK of a locked region leaves its record (R76). -/
theorem Slot.heldAs_lock (x : Slot) : x.HeldAs { x with record := { x.record with locked := true } } :=
  fun hlive hlocked => ⟨hlive, rfl, by rw [← hlocked]⟩

theorem HoldsLocked.refl (t : SlotTable) : HoldsLocked t t := fun i => .refl (slotAt t i)

theorem HoldsLocked.trans {t u v : SlotTable} (htu : HoldsLocked t u) (huv : HoldsLocked u v) : HoldsLocked t v := by
  intro i hlive hlocked
  obtain ⟨hstate, hgen, hrecord⟩ := htu i hlive hlocked
  obtain ⟨hstate', hgen', hrecord'⟩ := huv i hstate (by rw [hrecord, hlocked])
  exact ⟨hstate', hgen'.trans hgen, hrecord'.trans hrecord⟩

theorem SameRegions.holdsLocked {t u : SlotTable} (h : SameRegions t u) : HoldsLocked t u := by
  intro i hlive _
  obtain ⟨q, hq⟩ := h i
  rw [hq]
  exact ⟨hlive, rfl, rfl⟩

theorem holdsLocked_putSlot {t : SlotTable} {i : Fin 32} {x : Slot} (h : (slotAt t i).HeldAs x) :
    HoldsLocked t (putSlot t i x) := by
  intro j
  by_cases hj : j = i
  · subst hj; rwa [slotAt_putSlot_self]
  · rw [slotAt_putSlot_of_ne hj]; exact .refl _

theorem holdsLocked_tabulate {t : SlotTable} {f : Fin 32 → Slot} (h : ∀ i, (slotAt t i).HeldAs (f i)) :
    HoldsLocked t (tabulate f) := by
  intro i
  rw [slotAt_tabulate]
  exact h i

/-- Only RESERVED slots are released (R49). -/
theorem releaseReservations_holdsLocked (t : SlotTable) (changes : List Change) :
    HoldsLocked t (releaseReservations t changes) := by
  refine holdsLocked_tabulate fun i => ?_
  split
  · next h => exact Slot.heldAs_of_not_live (by simp [h.1]) _
  · exact .refl _

/-- Only a FREE slot is reserved (R3). -/
theorem createRequest_holdsLocked (p : List Byte) (s : State) :
    HoldsLocked s.rgt.slots (createRequest p s).state.rgt.slots := by
  unfold createRequest
  split
  · exact .refl _
  · split
    · exact .refl _
    · split
      · exact .refl _
      · next i hi => exact holdsLocked_putSlot (Slot.heldAs_of_not_live (by simp [(lowestFree_eq_some.1 hi).1]) _)

/-! ### The evaluation of a change set -/

/-- R41, R45: the slot of each CREATE of the list is RESERVED, and no earlier record of the list names it. -/
def CreatesWait (t : SlotTable) (changes : List Change) : Prop :=
  (∀ c ∈ changes, c.isCreate = true → (slotAt t c.target.slot).state = .reserved)
    ∧ changes.Pairwise fun a b => b.isCreate = true → a.target.slot ≠ b.target.slot

theorem createsWait_nil (t : SlotTable) : CreatesWait t [] := ⟨by simp, .nil⟩

/-- Of the staging law, what an evaluation needs. -/
theorem StagingLaw.createsWait {s : State} (h : StagingLaw s) : CreatesWait s.rgt.slots s.csu.changes := by
  obtain ⟨-, -, -, hfits, hpairs, -⟩ := h
  refine ⟨fun c hc hcreate => ?_, hpairs⟩
  have hfit := hfits c hc
  unfold Change.isCreate at hcreate
  unfold Change.fitsTable at hfit
  split at hcreate
  · next d hop => rw [hop] at hfit; rw [hfit]
  · cases hcreate

theorem CreatesWait.of_sameRegions {t u : SlotTable} {changes : List Change} (h : CreatesWait t changes) (htu : SameRegions t u) :
    CreatesWait u changes :=
  ⟨fun c hc hcreate => (htu.state_eq _).trans (h.1 c hc hcreate), h.2⟩

/-- A change carried out changes its target's slot alone. -/
theorem slotAt_carryOut_of_ne {w : Working} {c : Change} {i : Fin 32} (h : i ≠ c.target.slot) :
    slotAt (carryOut w c).slots i = slotAt w.slots i := by
  unfold carryOut
  split
  · exact slotAt_putSlot_of_ne h
  · exact slotAt_putSlot_of_ne h
  · exact slotAt_putSlot_of_ne h
  · rfl
  · exact slotAt_putSlot_of_ne h

/-- A CREATE still to come waits through the change before it, which names another slot. -/
theorem CreatesWait.carryOut {w : Working} {c : Change} {rest : List Change} (h : CreatesWait w.slots (c :: rest)) :
    CreatesWait (carryOut w c).slots rest := by
  obtain ⟨hreserved, hpairs⟩ := h
  obtain ⟨hahead, hpairs⟩ := List.pairwise_cons.1 hpairs
  refine ⟨fun b hb hcreate => ?_, hpairs⟩
  rw [slotAt_carryOut_of_ne (hahead b hb hcreate).symm]
  exact hreserved b (List.mem_cons_of_mem c hb) hcreate

/-- A target that passes its checks is not locked (R56). -/
theorem not_locked_of_targetFault_eq_none {guard : Bool} {w : Working} {h : Handle} (hf : targetFault guard w h = none) :
    (slotAt w.slots h.slot).record.locked = false := by
  unfold targetFault at hf
  split at hf
  · cases hf
  · split at hf
    · cases hf
    · next hlocked => exact Bool.eq_false_iff.2 hlocked

/-- A change that passes its checks holds every locked region: CREATE fills a RESERVED slot, LOCK leaves a locked record, and the others
are not passed on a locked target (R46, R56, R76). -/
theorem carryOut_holdsLocked {guard : Bool} {area : Option (Nat × Nat)} {w : Working} {c : Change}
    (hf : changeFault guard area w c = none) (hc : c.isCreate = true → (slotAt w.slots c.target.slot).state = .reserved) :
    HoldsLocked w.slots (carryOut w c).slots := by
  obtain ⟨index, target, op⟩ := c
  cases op with
  | create d => exact holdsLocked_putSlot (Slot.heldAs_of_not_live (by simp [hc rfl]) _)
  | amend g =>
    have htarget : targetFault guard w target = none := (Option.or_eq_none_iff.1 hf).1
    exact holdsLocked_putSlot (Slot.heldAs_of_not_locked (not_locked_of_targetFault_eq_none htarget) _)
  | retire => exact holdsLocked_putSlot (Slot.heldAs_of_not_locked (not_locked_of_targetFault_eq_none hf) _)
  | restack p => exact .refl _
  | lock => exact holdsLocked_putSlot (Slot.heldAs_lock _)

/-- Change by change: each holds the locked regions of the working copy it finds, and the rest those of the copy it leaves (R55, R57). -/
theorem evaluate_holdsLocked {guard : Bool} {area : Option (Nat × Nat)} {changes : List Change} {w w' : Working}
    (hc : CreatesWait w.slots changes) (h : evaluate guard area w changes = .passed w') : HoldsLocked w.slots w'.slots := by
  induction changes generalizing w with
  | nil => cases h; exact .refl _
  | cons c rest ih =>
    rw [evaluate_cons] at h
    split at h
    · cases h
    · next hf => exact (carryOut_holdsLocked hf (hc.1 c List.mem_cons_self)).trans (ih hc.carryOut h)

/-! ### Apply points and resets -/

/-- A commit makes the working copy the applied table, and PU's notice changes touch parts only (R58, R150). -/
theorem commitSet_sameRegions (w : Working) (s : State) : SameRegions w.slots (commitSet w s).rgt.slots :=
  (takeNotice_sameRegions w.dropped _ : SameRegions _ (commitSet w s).rgt.slots)

theorem applySet_holdsLocked {s : State} (h : CreatesWait s.rgt.slots s.csu.changes) :
    HoldsLocked s.rgt.slots (applySet s).rgt.slots := by
  rcases applySet_cases s with ⟨w, hw, heq⟩ | ⟨i, code, -, heq⟩ <;> rw [heq]
  · have hslots : HoldsLocked s.rgt.slots w.slots := evaluate_holdsLocked (w := s.working) h hw
    exact hslots.trans (commitSet_sameRegions w s).holdsLocked
  · exact releaseReservations_holdsLocked _ _

theorem applyIfPending_holdsLocked {s : State} (h : CreatesWait s.rgt.slots s.csu.changes) :
    HoldsLocked s.rgt.slots (applyIfPending s).rgt.slots := by
  unfold applyIfPending
  split
  · exact applySet_holdsLocked h
  · exact .refl _

theorem changeSetReset_holdsLocked (s : State) : HoldsLocked s.rgt.slots (changeSetReset s).rgt.slots := by
  unfold changeSetReset
  split
  · exact releaseReservations_holdsLocked _ _
  · exact releaseReservations_holdsLocked _ _

theorem changeSetReset_changes (s : State) : (changeSetReset s).csu.changes = [] := by
  unfold changeSetReset
  split
  · rfl
  · rfl

/-- A soft reset retires no locked region (R26). -/
theorem regionSoftReset_holdsLocked (s : State) : HoldsLocked s.rgt.slots (regionSoftReset s).rgt.slots := by
  refine holdsLocked_tabulate fun i hlive hlocked => ?_
  rw [if_neg (by simp [Slot.softRetired, hlocked])]
  exact ⟨hlive, rfl, rfl⟩

theorem softResetEffect_holdsLocked (s : State) : HoldsLocked s.rgt.slots (softResetEffect s).rgt.slots :=
  ((changeSetReset_holdsLocked s).trans (regionSoftReset_holdsLocked _)).trans (pointerReset_sameRegions _).holdsLocked

/-- A soft reset empties the staging list (R65). -/
theorem softResetEffect_changes (s : State) : (softResetEffect s).csu.changes = [] := by
  have hcsu : (softResetEffect s).csu = (regionSoftReset (changeSetReset s)).csu := cancelCapture_csu .reset _
  rw [hcsu]
  exact changeSetReset_changes s

theorem settled_holdsLocked (s : State) : HoldsLocked s.rgt.slots s.settled.rgt.slots := by
  cases h : s.hp.softResetDue
  · rw [State.settled_of_not_due h]; exact .refl _
  · rw [State.settled_of_due h]; exact softResetEffect_holdsLocked s

/-- A soft reset that is due empties the list, so no CREATE of it is left (R65, R180). -/
theorem CreatesWait.settled {s : State} (h : CreatesWait s.rgt.slots s.csu.changes) :
    CreatesWait s.settled.rgt.slots s.settled.csu.changes := by
  cases hdue : s.hp.softResetDue
  · rwa [State.settled_of_not_due hdue]
  · rw [State.settled_of_due hdue, softResetEffect_changes]
    exact createsWait_nil _

/-! ### The table that a row ends with -/

/-- The outcome refuses, or its next state has a table with the property. -/
def NextTable (P : SlotTable → Prop) (o : Host.Outcome State Fault Refusal) : Prop := ∀ t, o = .next t → P t.rgt.slots

@[simp] theorem nextTable_done {P : SlotTable → Prop} {s : State} : NextTable P (done s) ↔ P s.rgt.slots :=
  ⟨fun h => h s.judgeNote rfl, fun h t ht => by rw [done_eq_next.1 ht]; exact h⟩

@[simp] theorem nextTable_refused (P : SlotTable → Prop) (r : Refusal) : NextTable P (.refused r) := fun _ ht => nomatch ht

theorem NextTable.mono {P Q : SlotTable → Prop} {o : Host.Outcome State Fault Refusal} (h : NextTable P o)
    (hPQ : ∀ u, P u → Q u) : NextTable Q o :=
  fun t ht => hPQ _ (h t ht)

/-- Short of its eighth bit a byte leaves the table (R165). -/
theorem nextTable_clock {P : SlotTable → Prop} {s : State} {sdi : SdiBits} {event : Byte → Host.Outcome State Fault Refusal}
    (h : P s.rgt.slots) (hevent : ∀ b, NextTable P (event b)) : NextTable P (s.clock sdi event) := by
  intro t ht
  rcases State.clock_next ht with ⟨-, rfl⟩ | ⟨-, -, rfl⟩ | ⟨-, -, -, rfl⟩ | ⟨b, -, hb⟩
  · exact h
  · exact h
  · exact h
  · exact hevent b t hb

/-- A request row leaves the table, or ends with its owner's (R170). -/
theorem nextTable_takeRequest {P : SlotTable → Prop} {k : RequestKind} {sdi : SdiBits} {owner : List Byte → State → Answer}
    {s : State} (h : P s.rgt.slots) (howner : ∀ p, P (owner p s).state.rgt.slots) : NextTable P (takeRequest k sdi owner s) := by
  intro t ht
  rcases State.clock_next ht with ⟨-, rfl⟩ | ⟨-, -, rfl⟩ | ⟨-, -, -, rfl⟩ | ⟨b, hb, -⟩
  · exact h
  · exact h
  · exact h
  · rcases takeRequest_next hb ht with ⟨f, e, -, -, -, rfl⟩ | ⟨f, -, -, -, rfl⟩ | ⟨-, rfl⟩
    · exact h
    · exact howner f.params
    · exact h

@[simp] theorem State.faultReply_rgt (s : State) (e : FramingError) : (s.faultReply e).rgt = s.rgt := rfl

/-- The rows that leave the region table of the settled state: those of the board lines, of the bytes of the host port other than a
request's check byte, of the lines of a frame, and of the characters on PRX short of a report. -/
def sparesTable : Instr → Prop
  | .resetRelease | .guardLineChange _ | .fallbackLineChange _ | .selectFall | .selectRise | .softResetAction => True
  | .framingFault _ | .requestByteReceived _ | .replyByteShifted | .replyComplete => True
  | .lineStart | .cellIssue _ _ | .lineEnd | .retraceLine => True
  | .pointerLinkFault _ | .pointerCharacterKept _ => True
  | _ => False

/-- Each of these rows ends with `done` of a state with the settled table, or is refused. -/
theorem exec_sparesTable {P : SlotTable → Prop} {c : Instr} {s : State} (hc : sparesTable c) (h : P s.settled.rgt.slots) :
    NextTable P (exec c s) := by
  cases c with
  | guardLineChange level | fallbackLineChange level | softResetAction => exact nextTable_done.2 h
  | framingFault sdi | requestByteReceived sdi | replyByteShifted | replyComplete =>
    simp only [exec, execFramingFault, execRequestByteReceived, execReplyByteShifted, execReplyComplete]
    refine nextTable_clock h fun b => ?_
    repeat' split
    all_goals simp [h]
  | resetRelease | selectFall | selectRise | lineStart | cellIssue data groups | lineEnd | retraceLine | pointerLinkFault line
  | pointerCharacterKept line =>
    simp only [exec, execResetRelease, execSelectFall, execSelectRise, execLineStart, execCellIssue, execLineEnd, execRetraceLine,
      execPointerLinkFault, execPointerCharacterKept]
    repeat' split
    all_goals simp [h]
  | _ => exact hc.elim

/-- The rows of a completed report leave the table, or end with the table of its effect (R136). -/
theorem nextTable_onReport {P : SlotTable → Prop} {line : PrxBits} {s : State}
    {act : List Byte → Byte → Host.Outcome State Fault Refusal} (h : P s.rgt.slots)
    (hact : ∀ bytes check, NextTable P (act bytes check)) : NextTable P (onReport line s act) := by
  unfold onReport
  split
  · exact nextTable_done.2 h
  · split
    · exact hact _ _
    · exact nextTable_refused P _
    · exact nextTable_refused P _

theorem completeReport_sameRegions (k : ReportKind) (line : PrxBits) (s : State) :
    NextTable (SameRegions s.rgt.slots) (completeReport k line s) := by
  refine nextTable_onReport (SameRegions.refl _) fun bytes check => ?_
  split
  · exact nextTable_done.2 (reportEffect_sameRegions _ s)
  · exact nextTable_refused _ _

theorem execReportDiscarded_sameRegions (line : PrxBits) (s : State) :
    NextTable (SameRegions s.settled.rgt.slots) (execReportDiscarded line s) := by
  unfold execReportDiscarded
  refine nextTable_onReport (SameRegions.refl _) fun bytes check => ?_
  split
  · exact nextTable_done.2 (reportEffect_sameRegions _ s.settled)
  · exact nextTable_refused _ _

theorem execPointerTick_sameRegions (s : State) : NextTable (SameRegions s.settled.rgt.slots) (execPointerTick s) := by
  simp only [execPointerTick]
  split
  · exact nextTable_done.2 (takeTick_sameRegions _)
  · split
    · exact nextTable_done.2 (.refl _)
    · exact nextTable_refused _ _

theorem execContactTimeout_sameRegions (s : State) : NextTable (SameRegions s.settled.rgt.slots) (execContactTimeout s) := by
  simp only [execContactTimeout]
  split
  · split
    · exact nextTable_done.2 (takeTick_sameRegions _)
    · exact nextTable_refused _ _
  · split
    · exact nextTable_done.2 (.refl _)
    · exact nextTable_refused _ _

/-! ### Every event but power-on holds the locked regions -/

theorem publishRequest_holdsLocked (p : List Byte) {s : State} (h : CreatesWait s.rgt.slots s.csu.changes) :
    HoldsLocked s.rgt.slots (publishRequest p s).state.rgt.slots := by
  unfold publishRequest
  split
  · exact .refl _
  · dsimp only
    split
    · exact applySet_holdsLocked (s := s.setCsu { s.csu with seq := s.csu.seq + 1 }) h
    · exact .refl _

/-- A staged change of an existing region leaves the table: it acts when the set is applied (R40). -/
theorem stageChange_rgt (target : Handle) (payload : Option Operation) (lockChecked : Bool) (s : State) :
    (stageChange target payload lockChecked s).state.rgt = s.rgt := by
  unfold stageChange
  repeat' split
  all_goals rfl

theorem owner_holdsLocked (k : RequestKind) (p : List Byte) {s : State} (h : CreatesWait s.rgt.slots s.csu.changes) :
    HoldsLocked s.rgt.slots (k.owner p s).state.rgt.slots := by
  cases k with
  | create => exact createRequest_holdsLocked p s
  | publish => exact publishRequest_holdsLocked p h
  | pointerSettings => exact (pointerSettingsRequest_sameRegions p s).holdsLocked
  | readTouch => exact (readTouchRequest_sameRegions p s).holdsLocked
  | amend | retire | restack | lock =>
    simp only [RequestKind.owner, amendRequest, retireRequest, restackRequest, lockRequest, stageChange_rgt]
    exact .refl _
  | withdraw =>
    simp only [RequestKind.owner, withdrawRequest]
    split
    · exact releaseReservations_holdsLocked _ _
    · exact .refl _
  | discard =>
    simp only [RequestKind.owner, discardRequest]
    split
    · exact .refl _
    · exact releaseReservations_holdsLocked _ _
  | readOutcome | readStack | guardOn | readTiming | readStatus | softReset => exact .refl _
  | readRegion | guardOff | setTiming | startScan | stopScan | probe | setNoteMask =>
    simp only [RequestKind.owner, readRegionRequest, guardOffRequest, setTimingRequest, startScanRequest, stopScanRequest,
      probeRequest, setNoteMaskRequest]
    repeat' split
    all_goals exact .refl _

theorem takeRequest_holdsLocked {k : RequestKind} {sdi : SdiBits} {s : State} (h : CreatesWait s.rgt.slots s.csu.changes) :
    NextTable (HoldsLocked s.rgt.slots) (takeRequest k sdi k.owner s) :=
  nextTable_takeRequest (.refl _) fun p => owner_holdsLocked k p h

theorem execResetAssert_holdsLocked (s : State) : NextTable (HoldsLocked s.settled.rgt.slots) (execResetAssert s) :=
  nextTable_done.2 ((changeSetReset_holdsLocked s.settled).trans (pointerReset_sameRegions _).holdsLocked)

/-- Whichever of CSU and PU takes the frame start first, the CREATEs still wait when the set is applied (R53, R150). -/
theorem execFrameStart_holdsLocked (order : FrameOrder) {s : State} (h : CreatesWait s.settled.rgt.slots s.settled.csu.changes) :
    NextTable (HoldsLocked s.settled.rgt.slots) (execFrameStart order s) := by
  simp only [execFrameStart]
  split
  · exact nextTable_done.2 (.refl _)
  · exact nextTable_refused _ _
  · split
    · exact nextTable_refused _ _
    · next frame _ =>
      have htick : SameRegions s.settled.rgt.slots (takeTick (s.settled.beginFrame frame)).rgt.slots :=
        takeTick_sameRegions (s.settled.beginFrame frame)
      cases order with
      | csuFirst => exact nextTable_done.2 (applyIfPending_holdsLocked (s := s.settled.beginFrame frame) h)
      | puFirst =>
        refine nextTable_done.2 (htick.holdsLocked.trans (applyIfPending_holdsLocked ?_))
        rw [takeTick_csu]
        exact h.of_sameRegions htick

theorem execStopPoint_holdsLocked {s : State} (h : CreatesWait s.settled.rgt.slots s.settled.csu.changes) :
    NextTable (HoldsLocked s.settled.rgt.slots) (execStopPoint s) := by
  simp only [execStopPoint]
  split
  · exact nextTable_done.2 (.refl _)
  · exact nextTable_refused _ _
  · split
    · exact nextTable_done.2 (applyIfPending_holdsLocked
        (s := (((s.settled.setSe { s.settled.se with scan := .stopped, place := .outside, stop := none }).setCou ⟨none, 0⟩).idlePins
          [] false false)) h)
    · exact nextTable_refused _ _

/-- The rows in four kinds: a request, an apply point, an event of PU, and the rows that leave the table. -/
theorem exec_holdsLocked {c : Instr} {s : State} (hc : ¬c.isPowerOn) (h : CreatesWait s.settled.rgt.slots s.settled.csu.changes) :
    NextTable (HoldsLocked s.settled.rgt.slots) (exec c s) := by
  cases c with
  | powerOn select guard fallback => exact absurd ⟨select, guard, fallback, rfl⟩ hc
  | create sdi | amend sdi | retire sdi | restack sdi | lock sdi | publish sdi | withdraw sdi | discard sdi | readOutcome sdi
  | readRegion sdi | readStack sdi | guardOn sdi | guardOff sdi | setTiming sdi | readTiming sdi | startScan sdi | stopScan sdi
  | pointerSettings sdi | readTouch sdi | probe sdi | readStatus sdi | setNoteMask sdi | softReset sdi =>
    exact takeRequest_holdsLocked h
  | resetAssert => exact execResetAssert_holdsLocked s
  | frameStart order => exact execFrameStart_holdsLocked order h
  | stopPoint => exact execStopPoint_holdsLocked h
  | contact line | lift line => exact (completeReport_sameRegions _ line s.settled).mono fun _ hu => hu.holdsLocked
  | reportDiscarded line => exact (execReportDiscarded_sameRegions line s).mono fun _ hu => hu.holdsLocked
  | pointerTick => exact (execPointerTick_sameRegions s).mono fun _ hu => hu.holdsLocked
  | contactTimeout => exact (execContactTimeout_sameRegions s).mono fun _ hu => hu.holdsLocked
  | _ => exact exec_sparesTable trivial (.refl _)

/-- Settles O14: the soft reset that is due and then the event itself each hold the locked regions; at power-on every record is cleared. -/
theorem lockedRegionIsHeld : Obligations.LockedRegionIsHeld := by
  refine ⟨fun c s t i hs hc ht hlive hlocked => ?held, fun c s t i hc ht => ?cleared⟩
  case held =>
    have hevent : HoldsLocked s.settled.rgt.slots t.rgt.slots := exec_holdsLocked hc hs.staging.createsWait.settled t ht
    exact (settled_holdsLocked s).trans hevent i hlive hlocked
  case cleared =>
    obtain ⟨select, guard, fallback, rfl⟩ := hc
    have hslot : slotAt t.rgt.slots i = Slot.cleared 0 := by
      rw [done_eq_next.1 ht]
      exact slotAt_powerOn guard i
    rw [hslot]
    rfl

end Sys2Proof.Machine
end

section
/-! PROOFS. The owner of a cell (R101, R159): one search of the stacking order for a region that is shown and contains the cell, and
the fallback region, or BACKGROUND, where that search finds none. -/

namespace Sys2Proof.Machine
open Sys2Proof

/-! ### What contains a cell -/

/-- A rectangle contains the cells from its left to left + width − 1 and from its top to top + height − 1 (R101). -/
theorem Rect.contains_iff (r : Rect) (x y : Nat) : r.contains x y = true ↔
    r.left ≤ x ∧ x ≤ r.left + r.width - 1 ∧ 1 ≤ r.width ∧ r.top ≤ y ∧ y ≤ r.top + r.height - 1 ∧ 1 ≤ r.height := by
  simp only [Rect.contains, Bool.and_eq_true, decide_eq_true_eq]
  omega

/-- The fallback region contains the displayed area (R157). -/
theorem Entry.fallback_contains_iff (s : State) (x y : Nat) : Entry.fallback.contains s x y = true ↔
    x < s.se.timing.displayedColumns ∧ y < s.se.timing.displayedLines := by
  simp [Entry.contains, Entry.rect, Rect.contains]

/-! ### The regions of the effective stacking order -/

/-- The region stands in the effective stacking order (R35, R36): it is visible, and a TELLTALE while fallback is effective. -/
def shown (s : State) (h : Handle) : Bool :=
  isVisible s.rgt.slots h && (!s.se.fallbackEffective || classOf s.rgt.slots h == .telltale)

theorem shown_iff {s : State} {h : Handle} : shown s h = true ↔
    isVisible s.rgt.slots h = true ∧ (s.se.fallbackEffective = true → classOf s.rgt.slots h = .telltale) := by
  simp [shown, imp_iff_not_or]

/-- The effective stacking order is the shown regions in their stacking order, with the fallback region last while fallback is
effective (R36). -/
theorem effectiveOrder_eq_shown (s : State) : effectiveOrder s =
    (s.rgt.stack.filter (shown s)).map Entry.region ++ if s.se.fallbackEffective then [Entry.fallback] else [] := by
  cases hf : s.se.fallbackEffective with
  | false =>
    have hshown : shown s = isVisible s.rgt.slots := funext fun h => by simp [shown, hf]
    simp [effectiveOrder, hf, hshown]
  | true =>
    have hshown : shown s = fun h => classOf s.rgt.slots h == .telltale && isVisible s.rgt.slots h :=
      funext fun h => by simp [shown, hf, Bool.and_comm]
    simp [effectiveOrder, hf, hshown]

/-! ### The owner of a cell -/

/-- The region is shown and its rectangle contains the cell (R101). -/
def shownAt (s : State) (c y : Nat) (h : Handle) : Bool := shown s h && (Entry.region h).contains s c y

theorem shownAt_iff {s : State} {c y : Nat} {h : Handle} : shownAt s c y h = true ↔
    isVisible s.rgt.slots h = true ∧ (slotAt s.rgt.slots h.slot).record.rect.contains c y = true
      ∧ (s.se.fallbackEffective = true → classOf s.rgt.slots h = .telltale) := by
  simp only [shownAt, Bool.and_eq_true, shown_iff, Entry.contains, Entry.rect]
  tauto

theorem shownAt_eq_false_iff {s : State} {c y : Nat} {h : Handle} : shownAt s c y h = false ↔
    (isVisible s.rgt.slots h = true → (s.se.fallbackEffective = true → classOf s.rgt.slots h = .telltale) →
      (slotAt s.rgt.slots h.slot).record.rect.contains c y = false) := by
  rw [← Bool.not_eq_true, shownAt_iff, ← Bool.not_eq_true]
  tauto

/-- The owner where no region owns the cell: the fallback region on its rectangle while fallback is effective, else BACKGROUND. -/
def regionlessOwner (s : State) (c y : Nat) : Owner :=
  if s.se.fallbackEffective && Entry.fallback.contains s c y then .fallback else .background

/-- The owner of a cell is found by one search of the stacking order. -/
theorem ownerOf_effectiveOrder (s : State) (c y : Nat) : ownerOf s (effectiveOrder s) c y =
    ((s.rgt.stack.find? (shownAt s c y)).map Owner.region).getD (regionlessOwner s c y) := by
  have hregions : ((s.rgt.stack.filter (shown s)).map Entry.region).find? (fun e => e.contains s c y) =
      (s.rgt.stack.find? (shownAt s c y)).map Entry.region := by
    rw [List.find?_map, List.find?_filter]
    congr 2
    exact funext fun h => by simp [shownAt]
  have hlast : (if s.se.fallbackEffective then [Entry.fallback] else []).find? (fun e => e.contains s c y) =
      if s.se.fallbackEffective && Entry.fallback.contains s c y then some Entry.fallback else none := by
    cases s.se.fallbackEffective <;> simp [List.find?_singleton]
  rw [ownerOf, effectiveOrder_eq_shown, List.find?_append, hregions, hlast, regionlessOwner]
  cases s.rgt.stack.find? (shownAt s c y) with
  | some h => rfl
  | none => cases s.se.fallbackEffective && Entry.fallback.contains s c y <;> rfl

theorem regionlessOwner_ne_region (s : State) (c y : Nat) (h : Handle) : regionlessOwner s c y ≠ .region h := by
  unfold regionlessOwner
  split <;> simp

/-- A region owns a cell exactly when the search finds it. -/
theorem ownerOf_eq_region_iff {s : State} {c y : Nat} {h : Handle} :
    ownerOf s (effectiveOrder s) c y = .region h ↔ s.rgt.stack.find? (shownAt s c y) = some h := by
  rw [ownerOf_effectiveOrder]
  cases s.rgt.stack.find? (shownAt s c y) with
  | some g => simp
  | none => simp [regionlessOwner_ne_region]

/-- A cell that no region owns has the fallback region or BACKGROUND for its owner. -/
theorem ownerOf_eq_region_or_regionless (s : State) (c y : Nat) :
    (∃ h, ownerOf s (effectiveOrder s) c y = .region h)
      ∨ ownerOf s (effectiveOrder s) c y = regionlessOwner s c y := by
  rw [ownerOf_effectiveOrder]
  cases s.rgt.stack.find? (shownAt s c y) with
  | some h => exact .inl ⟨h, rfl⟩
  | none => exact .inr rfl

/-- While fallback is effective the fallback region owns what no region owns of the displayed area (R159). -/
theorem ownerOf_ne_background {s : State} {c y : Nat} (hf : s.se.fallbackEffective = true)
    (hc : c < s.se.timing.displayedColumns) (hy : y < s.se.timing.displayedLines) :
    ownerOf s (effectiveOrder s) c y ≠ .background := by
  obtain ⟨h, hown⟩ | hown := ownerOf_eq_region_or_regionless s c y
  · simp [hown]
  · simp [hown, regionlessOwner, hf, (Entry.fallback_contains_iff s c y).2 ⟨hc, hy⟩]

theorem ownerOf_ne_fallback {s : State} {c y : Nat} (hf : s.se.fallbackEffective = false) :
    ownerOf s (effectiveOrder s) c y ≠ .fallback := by
  obtain ⟨h, hown⟩ | hown := ownerOf_eq_region_or_regionless s c y
  · simp [hown]
  · simp [hown, regionlessOwner, hf]

/-- Settles O28: the search of the stacking order finds the frontmost shown region that contains the cell, and the fallback region stands
behind every region exactly while fallback is effective. -/
theorem ownersOfCells : Obligations.OwnersOfCells := by
  refine fun s c y => ⟨fun h => ?frontmost, ownerOf_ne_background, ownerOf_ne_fallback, fun r => r.contains_iff c y⟩
  case frontmost =>
    rw [ownerOf_eq_region_iff, List.find?_eq_some_iff_append, shownAt_iff]
    simp only [Bool.not_eq_true', shownAt_eq_false_iff]
    constructor
    · rintro ⟨⟨hvisible, hcontains, hclass⟩, front, back, hstack, hfront⟩
      exact ⟨front, back, hstack, hvisible, hcontains, hclass, hfront⟩
    · rintro ⟨front, back, hstack, hvisible, hcontains, hclass, hfront⟩
      exact ⟨⟨hvisible, hcontains, hclass⟩, front, back, hstack, hfront⟩

end Sys2Proof.Machine
end

section
/-! PROOFS. The phases of the cell blink and of the cursor blink modes, as conditions on the frame counter (R123), and the table of them over
the four quarters of its range. -/

namespace Sys2Proof.Machine
open Sys2Proof

/-! ### When each phase holds -/

theorem blinkHidden_eq_true_iff (f : BitVec 6) : blinkHidden f = true ↔ 32 ≤ f.toNat := decide_eq_true_iff

theorem blinkHidden_eq_false_iff (f : BitVec 6) : blinkHidden f = false ↔ f.toNat < 32 := by simp [blinkHidden]

@[simp] theorem cursorOn_steady (f : BitVec 6) : cursorOn f .steady = true := rfl

theorem cursorOn_slow (f : BitVec 6) : cursorOn f .slow = !blinkHidden f := by
  rw [Bool.eq_iff_iff]
  simp [cursorOn, blinkHidden]

theorem cursorOn_fast_of_quarter {f : BitVec 6} {q : Nat} (h : f.toNat / 16 = q) : cursorOn f .fast = decide (q % 2 = 0) := by
  rw [cursorOn, h]

/-! ### The four quarters of the counter -/

/-- Settles O36: SLOW is on exactly while the cell blink is shown, and each range of the obligation is one quarter of the counter, whose
parity FAST follows. -/
theorem blinkPhases : Obligations.BlinkPhases := by
  intro f
  have hrange : f.toNat < 64 := f.isLt
  have shown (h : f.toNat < 32) : blinkHidden f = false := (blinkHidden_eq_false_iff f).2 h
  have hidden (h : 32 ≤ f.toNat) : blinkHidden f = true := (blinkHidden_eq_true_iff f).2 h
  refine ⟨fun hle => ?quarter0, fun hge hle => ?quarter1, fun hge hle => ?quarter2, fun hge => ?quarter3⟩
  case quarter0 =>
    have hquarter : f.toNat / 16 = 0 := by omega
    simp [cursorOn_slow, shown (by omega), cursorOn_fast_of_quarter hquarter]
  case quarter1 =>
    have hquarter : f.toNat / 16 = 1 := by omega
    simp [cursorOn_slow, shown (by omega), cursorOn_fast_of_quarter hquarter]
  case quarter2 =>
    have hquarter : f.toNat / 16 = 2 := by omega
    simp [cursorOn_slow, hidden hge, cursorOn_fast_of_quarter hquarter]
  case quarter3 =>
    have hquarter : f.toNat / 16 = 3 := by omega
    simp [cursorOn_slow, hidden (by omega), cursorOn_fast_of_quarter hquarter]

end Sys2Proof.Machine
end

section
/-! PROOFS. What an event can do, said once: every command but POWER_ON that gives a next state first settles a due soft reset and then
does one of the happenings below, with NOTE judged at the end. The laws over all commands are proved happening by happening. -/

namespace Sys2Proof.Machine
open Sys2Proof

-- One theorem after another, as in the tests: each thread of its own takes a stack and a heap of the checker's memory.
set_option Elab.async false

/-! ### The happenings -/

/-- What the lines and bytes of the host port can do, short of a request that is taken (R165 to R174, R182, R183). -/
inductive PortEvent (s : State) : Instr → State → Prop
  | sdoLow (c : Instr) (n : Nat) : s.hp.select = .asserted → s.hp.resetLine = .asserted →
      PortEvent s c (s.setPins { s.pins with sdo := some (List.replicate n false) })
  | bitsHeld (c : Instr) (sdi : SdiBits) : s.hp.select = .asserted → s.hp.resetLine = .released →
      (s.hp.bits ++ sdi).length < 8 →
      PortEvent s c ((s.setHp { s.hp with bits := s.hp.bits ++ sdi }).setPins
        { s.pins with sdo := some ((byteBits s.hp.trans.outByte).take (s.hp.bits ++ sdi).length) })
  | byteIgnored (c : Instr) (b : Byte) (sdi : SdiBits) : Clocked b sdi s →
      (s.hp.trans = .idle ∨ s.hp.trans = .draining ∨ s.hp.trans = .held) → PortEvent s c s.ignoreByte
  | faulted (c : Instr) (b : Byte) (sdi : SdiBits) (f : Frame) (e : FramingError) : Clocked b sdi s →
      s.hp.trans = .receiving f → f.judge b = some e → PortEvent s c (s.faultReply e)
  | requestByte (b : Byte) (sdi : SdiBits) (f : Frame) : Clocked b sdi s → s.hp.trans = .receiving f →
      f.atCheckByte = false → PortEvent s (.requestByteReceived sdi) (s.endByte (.receiving (f.take b)))
  | replyByte (b : Byte) (reply : List Byte) (sent : Nat) (soft : Bool) : Clocked b s.restOfByte s →
      s.hp.trans = .replying reply sent soft → sent + 1 < reply.length →
      PortEvent s .replyByteShifted (s.endByte (.replying reply (sent + 1) soft))
  | replyEnd (b : Byte) (reply : List Byte) (sent : Nat) (soft : Bool) : Clocked b s.restOfByte s →
      s.hp.trans = .replying reply sent soft → sent + 1 = reply.length →
      PortEvent s .replyComplete
        ((s.endByte .draining).setHp { (s.endByte .draining).hp with softResetDue := soft })
  | selectFell : s.hp.select = .released →
      PortEvent s .selectFall ((s.setHp { s.hp with
          select := .asserted
          bits := []
          trans := if s.hp.trans = .idle ∧ s.hp.resetLine = .released then .receiving Frame.empty else s.hp.trans }).setPins
        { s.pins with sdo := some [] })
  | selectRose : s.hp.select = .asserted →
      PortEvent s .selectRise ((s.setHp s.hp.selectRisen).setPins { s.pins with sdo := none })
  | resetReleased : s.hp.resetLine = .asserted →
      PortEvent s .resetRelease (s.setHp { s.hp with
        resetLine := .released
        trans := if s.hp.select = .released then .idle else .held })

/-- What the pointer link and the ticks can do (R135 to R137, R146). -/
inductive PointerEvent (s : State) : Instr → State → Prop
  | kept (line : PrxBits) (ch : PrxChar) (r : Receiver) : s.pu.receiver.on ch = .kept r →
      PointerEvent s (.pointerCharacterKept line) (s.setPu { s.pu with receiver := r })
  | faulted (line : PrxBits) (ch : PrxChar) (r : Receiver) : s.pu.receiver.on ch = .faulted r →
      PointerEvent s (.pointerLinkFault line) (s.setPu { s.pu.setLink with receiver := r })
  | report (c : Instr) (ch : PrxChar) (bytes : List Byte) : s.pu.receiver.on ch = .completes bytes →
      PointerEvent s c (reportEffect (judgeReport s bytes ch.data) s)
  | tick (c : Instr) : s.se.tickOwed = true → PointerEvent s c (takeTick s)

/-- The frame that a frame start opens, with PU's tick where PU takes the frame start first (R89, R150; log entry 5). -/
def frameOpened (order : FrameOrder) (frame : BitVec 6) (s : State) : State :=
  match order with
  | .csuFirst => s.beginFrame frame
  | .puFirst => takeTick (s.beginFrame frame)

/-- SE at the stop point, before CSU takes it (R92). -/
def scanEnded (s : State) : State :=
  ((s.setSe { s.se with scan := .stopped, place := .outside, stop := none }).setCou ⟨none, 0⟩).idlePins [] false false

/-- The cell that is issued next in line y, read from the span list (R104). -/
def nextCell (s : State) (y : Nat) (data : CellData) : Cell :=
  cellOf s (spanOwner s.lc.spans s.lc.column) s.lc.column y data.pdata data.adata

/-- What the scan can do while it is not STOPPED (R88 to R92, R104, R132). -/
inductive ScanEvent (s : State) : Instr → State → Prop
  | frameStart (order : FrameOrder) (frame : BitVec 6) : s.se.scan = .running → s.se.nextFrame = some frame →
      ScanEvent s (.frameStart order) (applyIfPending (frameOpened order frame s))
  | retraceLine (k : Nat) : s.se.scan ≠ .stopped → s.se.place = .retrace k → k < s.se.timing.retraceLines →
      s.se.stop ≠ some .lastLineEnd →
      ScanEvent s .retraceLine ((s.setSe { s.se with place := .retrace (k + 1) }).idlePins [] false false)
  | stopPoint : s.se.scan = .stopping → s.se.atStopPoint = true → ScanEvent s .stopPoint (applyIfPending (scanEnded s))
  | lineStart (y : Nat) : s.se.scan ≠ .stopped → s.se.place = .before y → s.se.tickOwed = false →
      ScanEvent s .lineStart ((((s.setSe { s.se with place := .inLine y }).setLc ⟨spanList s y, 0⟩).setPanel
        { s.panel with shifted := [] }).setPins { s.pins with dots := [], lsync := false, fsync := false })
  | cellIssue (y : Nat) (data : CellData) (n : Nat) : s.se.scan ≠ .stopped → s.se.place = .inLine y →
      s.lc.column < s.se.timing.displayedColumns →
      ScanEvent s (.cellIssue data n)
        (((shiftOut (s.groupsLeft ++ (s.cellGroups (nextCell s y data)).take n) (issueCell (nextCell s y data) s)).setCou
          (couAfter s (nextCell s y data) n)).setLc { s.lc with column := s.lc.column + 1 })
  | lineEnd (y : Nat) : s.se.scan ≠ .stopped → s.se.place = .inLine y → s.lc.column = s.se.timing.displayedColumns →
      ScanEvent s .lineEnd (((((s.setSe { s.se with place := s.se.timing.afterLine y }).setLc ⟨[], 0⟩).setCou ⟨none, 0⟩).setPanel
        ⟨s.panel.shifted ++ s.groupsLeft, s.panel.shifted ++ s.groupsLeft⟩).idlePins s.groupsLeft true false)

/-- The blocks at the assertion of RESET, with SDO and NOTE still as they were (R25, R65, R97, R118, R155). -/
def blocksReset (s : State) : State :=
  let s1 := pointerReset (changeSetReset s)
  dropLine (s1.setSe s1.se.halted)

/-- The part at the assertion of RESET, NOTE not yet judged (R183). -/
def resetAsserted (s : State) : State :=
  let s3 := (blocksReset s).setHp (blocksReset s).hp.resetAsserted
  s3.setPins { s3.pins with sdo := s3.hp.freshSdo }

/-- What an event but POWER_ON can do in a settled state, NOTE not yet judged. -/
inductive Happens (s : State) : Instr → State → Prop
  | nothing (c : Instr) : Happens s c s
  | port {c : Instr} {u : State} : PortEvent s c u → Happens s c u
  | pointer {c : Instr} {u : State} : PointerEvent s c u → Happens s c u
  | scan {c : Instr} {u : State} : ScanEvent s c u → Happens s c u
  | request (k : RequestKind) (sdi : SdiBits) (b : Byte) (f : Frame) : Clocked b sdi s → s.hp.trans = .receiving f →
      f.kind = some k.code → f.judge b = none →
      Happens s (k.row sdi) ((k.owner f.params s).state.replyWith (k.owner f.params s).code (k.owner f.params s).bytes
        (k == .softReset))
  | resetAssert : Happens s .resetAssert (resetAsserted s)
  | guardLine (level : LineLevel) : Happens s (.guardLineChange level) (s.setRgt { s.rgt with guardLine := level })
  | fallbackLine (level : LineLevel) : Happens s (.fallbackLineChange level) (s.setSe { s.se with fallbackLine := level })

/-- The outcome is refused, or its next state comes of a happening in the state. -/
def HappensIn (s : State) (c : Instr) (o : Host.Outcome State Fault Refusal) : Prop :=
  ∀ t, o = .next t → ∃ u, Happens s c u ∧ t = u.judgeNote

/-! ### Every command but POWER_ON brings a happening -/

theorem Happens.done {s u : State} {c : Instr} (h : Happens s c u) : HappensIn s c (done u) :=
  fun _ ht => ⟨u, h, done_eq_next.1 ht⟩

theorem happensIn_refused (s : State) (c : Instr) (r : Refusal) : HappensIn s c (.refused r) := fun _ ht => nomatch ht

/-- The bits of a byte, and then the byte's event (R165). -/
theorem happensIn_clock {s : State} {c : Instr} {sdi : SdiBits} {event : Byte → Host.Outcome State Fault Refusal}
    (h : ∀ b, Clocked b sdi s → HappensIn s c (event b)) : HappensIn s c (s.clock sdi event) := by
  intro t ht
  rcases State.clock_next ht with ⟨-, rfl⟩ | ⟨hs, hr, rfl⟩ | ⟨hs, hr, hn, rfl⟩ | ⟨b, hb, hev⟩
  · exact ⟨s, .nothing c, rfl⟩
  · exact ⟨_, .port (.sdoLow c sdi.length hs hr), rfl⟩
  · exact ⟨_, .port (.bitsHeld c sdi hs hr hn), rfl⟩
  · exact h b hb t hev

theorem happensIn_row (k : RequestKind) (sdi : SdiBits) (s : State) : HappensIn s (k.row sdi) (takeRequest k sdi k.owner s) := by
  intro t ht
  have hclock : HappensIn s (k.row sdi) (takeRequest k sdi k.owner s) := by
    refine happensIn_clock fun b hb t ht => ?_
    have hrow : takeRequest k sdi k.owner s = .next t := by rw [takeRequest, State.clock_of_clocked hb]; exact ht
    rcases takeRequest_next hb hrow with ⟨f, e, hf, -, he, rfl⟩ | ⟨f, hf, hk, hj, rfl⟩ | ⟨hi, rfl⟩
    · exact ⟨_, .port (.faulted _ b sdi f e hb hf he), rfl⟩
    · exact ⟨_, .request k sdi b f hb hf hk hj, rfl⟩
    · exact ⟨_, .port (.byteIgnored _ b sdi hb hi), rfl⟩
  exact hclock t ht

theorem happensIn_framingFault (sdi : SdiBits) (s : State) :
    HappensIn s.settled (.framingFault sdi) (execFramingFault sdi s) := by
  simp only [execFramingFault]
  refine happensIn_clock fun b hb => ?_
  split
  · next f hf =>
    split
    · split
      · next e he => exact (Happens.port (.faulted _ b sdi f e hb hf he)).done
      · exact happensIn_refused _ _ _
    · exact happensIn_refused _ _ _
  · exact happensIn_refused _ _ _
  · next hi => exact (Happens.port (.byteIgnored _ b sdi hb (.inl hi))).done
  · next hi => exact (Happens.port (.byteIgnored _ b sdi hb (.inr (.inl hi)))).done
  · next hi => exact (Happens.port (.byteIgnored _ b sdi hb (.inr (.inr hi)))).done

theorem happensIn_requestByteReceived (sdi : SdiBits) (s : State) :
    HappensIn s.settled (.requestByteReceived sdi) (execRequestByteReceived sdi s) := by
  simp only [execRequestByteReceived]
  refine happensIn_clock fun b hb => ?_
  split
  · next f hf =>
    split
    · exact happensIn_refused _ _ _
    · next hn => exact (Happens.port (.requestByte b sdi f hb hf (Bool.eq_false_iff.2 hn))).done
  · exact happensIn_refused _ _ _
  · next hi => exact (Happens.port (.byteIgnored _ b sdi hb (.inl hi))).done
  · next hi => exact (Happens.port (.byteIgnored _ b sdi hb (.inr (.inl hi)))).done
  · next hi => exact (Happens.port (.byteIgnored _ b sdi hb (.inr (.inr hi)))).done

theorem happensIn_replyByteShifted (s : State) : HappensIn s.settled .replyByteShifted (execReplyByteShifted s) := by
  simp only [execReplyByteShifted]
  refine happensIn_clock fun b hb => ?_
  split
  · exact happensIn_refused _ _ _
  · next reply sent soft hr =>
    split
    · next hn => exact (Happens.port (.replyByte b reply sent soft hb hr hn)).done
    · exact happensIn_refused _ _ _
  · next hi => exact (Happens.port (.byteIgnored _ b _ hb (.inl hi))).done
  · next hi => exact (Happens.port (.byteIgnored _ b _ hb (.inr (.inl hi)))).done
  · next hi => exact (Happens.port (.byteIgnored _ b _ hb (.inr (.inr hi)))).done

theorem happensIn_replyComplete (s : State) : HappensIn s.settled .replyComplete (execReplyComplete s) := by
  simp only [execReplyComplete]
  refine happensIn_clock fun b hb => ?_
  split
  · exact happensIn_refused _ _ _
  · next reply sent soft hr =>
    split
    · next hn => exact (Happens.port (.replyEnd b reply sent soft hb hr hn)).done
    · exact happensIn_refused _ _ _
  · next hi => exact (Happens.port (.byteIgnored _ b _ hb (.inl hi))).done
  · next hi => exact (Happens.port (.byteIgnored _ b _ hb (.inr (.inl hi)))).done
  · next hi => exact (Happens.port (.byteIgnored _ b _ hb (.inr (.inr hi)))).done

/-- The edges of SELECT and the release of RESET: the line's change, or none where it stands at the level. -/
theorem happensIn_portLines (s : State) :
    HappensIn s.settled .selectFall (execSelectFall s) ∧ HappensIn s.settled .selectRise (execSelectRise s)
      ∧ HappensIn s.settled .resetRelease (execResetRelease s) := by
  refine ⟨?_, ?_, ?_⟩
  · simp only [execSelectFall]
    split
    · exact (Happens.nothing _).done
    · next hs =>
      refine (Happens.port (.selectFell ?_)).done
      cases h : s.settled.hp.select
      · exact absurd h hs
      · rfl
  · simp only [execSelectRise]
    split
    · exact (Happens.nothing _).done
    · next hs =>
      refine (Happens.port (.selectRose ?_)).done
      cases h : s.settled.hp.select
      · rfl
      · exact absurd h hs
  · simp only [execResetRelease]
    split
    · next hr => exact (Happens.port (.resetReleased hr)).done
    · exact (Happens.nothing _).done

theorem happensIn_frameStart (order : FrameOrder) (s : State) :
    HappensIn s.settled (.frameStart order) (execFrameStart order s) := by
  simp only [execFrameStart]
  split
  · exact (Happens.nothing _).done
  · exact happensIn_refused _ _ _
  · next hscan =>
    split
    · exact happensIn_refused _ _ _
    · next frame hframe =>
      cases order with
      | csuFirst => exact (Happens.scan (.frameStart .csuFirst frame hscan hframe)).done
      | puFirst => exact (Happens.scan (.frameStart .puFirst frame hscan hframe)).done

theorem happensIn_retraceLine (s : State) : HappensIn s.settled .retraceLine (execRetraceLine s) := by
  simp only [execRetraceLine]
  split
  · exact (Happens.nothing _).done
  · next hscan =>
    split
    · next k hk =>
      split
      · next h => exact (Happens.scan (.retraceLine k hscan hk h.1 h.2)).done
      · exact happensIn_refused _ _ _
    all_goals exact happensIn_refused _ _ _

theorem happensIn_stopPoint (s : State) : HappensIn s.settled .stopPoint (execStopPoint s) := by
  simp only [execStopPoint]
  split
  · exact (Happens.nothing _).done
  · exact happensIn_refused _ _ _
  · next hscan =>
    split
    · next hat => exact (Happens.scan (.stopPoint hscan hat)).done
    · exact happensIn_refused _ _ _

theorem happensIn_lineStart (s : State) : HappensIn s.settled .lineStart (execLineStart s) := by
  simp only [execLineStart]
  split
  · exact (Happens.nothing _).done
  · next hscan =>
    split
    · next y hy =>
      split
      · exact happensIn_refused _ _ _
      · next howed => exact (Happens.scan (.lineStart y hscan hy (Bool.eq_false_iff.2 howed))).done
    all_goals exact happensIn_refused _ _ _

theorem happensIn_cellIssue (data : CellData) (n : Nat) (s : State) :
    HappensIn s.settled (.cellIssue data n) (execCellIssue data n s) := by
  simp only [execCellIssue]
  split
  · exact (Happens.nothing _).done
  · next hscan =>
    split
    · next y hy =>
      split
      · next hc => exact (Happens.scan (.cellIssue y data n hscan hy hc)).done
      · exact happensIn_refused _ _ _
    all_goals exact happensIn_refused _ _ _

theorem happensIn_lineEnd (s : State) : HappensIn s.settled .lineEnd (execLineEnd s) := by
  simp only [execLineEnd]
  split
  · exact (Happens.nothing _).done
  · next hscan =>
    split
    · next y hy =>
      split
      · next hc => exact (Happens.scan (.lineEnd y hscan hy hc)).done
      · exact happensIn_refused _ _ _
    all_goals exact happensIn_refused _ _ _

theorem happensIn_pointerCharacterKept (line : PrxBits) (s : State) :
    HappensIn s.settled (.pointerCharacterKept line) (execPointerCharacterKept line s) := by
  simp only [execPointerCharacterKept]
  split
  · exact (Happens.nothing _).done
  · next ch _ =>
    split
    · next r hr => exact (Happens.pointer (.kept line ch r hr)).done
    · exact happensIn_refused _ _ _
    · exact happensIn_refused _ _ _

theorem happensIn_pointerLinkFault (line : PrxBits) (s : State) :
    HappensIn s.settled (.pointerLinkFault line) (execPointerLinkFault line s) := by
  simp only [execPointerLinkFault]
  split
  · exact (Happens.nothing _).done
  · next ch _ =>
    split
    · next r hr => exact (Happens.pointer (.faulted line ch r hr)).done
    · exact happensIn_refused _ _ _
    · exact happensIn_refused _ _ _

/-- The rows of a completed report: none completes, or it is judged. -/
theorem happensIn_onReport {s : State} {c : Instr} {line : PrxBits} {act : List Byte → Byte → Host.Outcome State Fault Refusal}
    (h : ∀ ch bytes, s.pu.receiver.on ch = .completes bytes → HappensIn s c (act bytes ch.data)) :
    HappensIn s c (onReport line s act) := by
  unfold onReport
  split
  · exact (Happens.nothing c).done
  · next ch _ =>
    split
    · next bytes hb => exact h ch bytes hb
    · exact happensIn_refused _ _ _
    · exact happensIn_refused _ _ _

theorem happensIn_completeReport (k : ReportKind) (c : Instr) (line : PrxBits) (s : State) :
    HappensIn s c (completeReport k line s) := by
  refine happensIn_onReport fun ch bytes hb => ?_
  split
  · exact (Happens.pointer (.report c ch bytes hb)).done
  · exact happensIn_refused _ _ _

theorem happensIn_reportDiscarded (line : PrxBits) (s : State) :
    HappensIn s.settled (.reportDiscarded line) (execReportDiscarded line s) := by
  unfold execReportDiscarded
  refine happensIn_onReport fun ch bytes hb => ?_
  split
  · exact (Happens.pointer (.report _ ch bytes hb)).done
  · exact happensIn_refused _ _ _

theorem happensIn_pointerTick (s : State) : HappensIn s.settled .pointerTick (execPointerTick s) := by
  simp only [execPointerTick]
  split
  · next howed => exact (Happens.pointer (.tick _ howed)).done
  · split
    · exact (Happens.nothing _).done
    · exact happensIn_refused _ _ _

theorem happensIn_contactTimeout (s : State) : HappensIn s.settled .contactTimeout (execContactTimeout s) := by
  simp only [execContactTimeout]
  split
  · next howed =>
    split
    · exact (Happens.pointer (.tick _ howed)).done
    · exact happensIn_refused _ _ _
  · split
    · exact (Happens.nothing _).done
    · exact happensIn_refused _ _ _

/-- Every command but POWER_ON that gives a next state brings one of the happenings in the settled state, and NOTE is judged. -/
theorem exec_happens {c : Instr} {s t : State} (hc : ¬c.isPowerOn) (h : exec c s = .next t) :
    ∃ u, Happens s.settled c u ∧ t = u.judgeNote := by
  revert t
  change HappensIn s.settled c (exec c s)
  cases c with
  | powerOn select guard fallback => exact absurd ⟨select, guard, fallback, rfl⟩ hc
  | create sdi => exact happensIn_row .create sdi _
  | amend sdi => exact happensIn_row .amend sdi _
  | retire sdi => exact happensIn_row .retire sdi _
  | restack sdi => exact happensIn_row .restack sdi _
  | lock sdi => exact happensIn_row .lock sdi _
  | publish sdi => exact happensIn_row .publish sdi _
  | withdraw sdi => exact happensIn_row .withdraw sdi _
  | discard sdi => exact happensIn_row .discard sdi _
  | readOutcome sdi => exact happensIn_row .readOutcome sdi _
  | readRegion sdi => exact happensIn_row .readRegion sdi _
  | readStack sdi => exact happensIn_row .readStack sdi _
  | guardOn sdi => exact happensIn_row .guardOn sdi _
  | guardOff sdi => exact happensIn_row .guardOff sdi _
  | setTiming sdi => exact happensIn_row .setTiming sdi _
  | readTiming sdi => exact happensIn_row .readTiming sdi _
  | startScan sdi => exact happensIn_row .startScan sdi _
  | stopScan sdi => exact happensIn_row .stopScan sdi _
  | pointerSettings sdi => exact happensIn_row .pointerSettings sdi _
  | readTouch sdi => exact happensIn_row .readTouch sdi _
  | probe sdi => exact happensIn_row .probe sdi _
  | readStatus sdi => exact happensIn_row .readStatus sdi _
  | setNoteMask sdi => exact happensIn_row .setNoteMask sdi _
  | softReset sdi => exact happensIn_row .softReset sdi _
  | softResetAction => exact (Happens.nothing _).done
  | resetAssert => exact Happens.resetAssert.done
  | guardLineChange level => exact (Happens.guardLine level).done
  | fallbackLineChange level => exact (Happens.fallbackLine level).done
  | resetRelease => exact (happensIn_portLines s).2.2
  | selectFall => exact (happensIn_portLines s).1
  | selectRise => exact (happensIn_portLines s).2.1
  | framingFault sdi => exact happensIn_framingFault sdi s
  | requestByteReceived sdi => exact happensIn_requestByteReceived sdi s
  | replyByteShifted => exact happensIn_replyByteShifted s
  | replyComplete => exact happensIn_replyComplete s
  | frameStart order => exact happensIn_frameStart order s
  | retraceLine => exact happensIn_retraceLine s
  | stopPoint => exact happensIn_stopPoint s
  | lineStart => exact happensIn_lineStart s
  | cellIssue data n => exact happensIn_cellIssue data n s
  | lineEnd => exact happensIn_lineEnd s
  | pointerCharacterKept line => exact happensIn_pointerCharacterKept line s
  | pointerLinkFault line => exact happensIn_pointerLinkFault line s
  | reportDiscarded line => exact happensIn_reportDiscarded line s
  | contact line => exact happensIn_completeReport .contact _ line _
  | lift line => exact happensIn_completeReport .lift _ line _
  | pointerTick => exact happensIn_pointerTick s
  | contactTimeout => exact happensIn_contactTimeout s

/-! ### The queue, the settled state and NOTE -/

/-- Settles O1, by the definition of a step. -/
theorem stepTakesFrontCommand : Obligations.StepTakesFrontCommand := by
  refine ⟨fun c rest s h => ?_, fun s h => ?_⟩
  · rw [step, h]
  · rw [step, h]

/-- Settles O3: every command but POWER_ON reads the settled state only, and settling is idempotent. -/
theorem dueSoftResetActsFirst : Obligations.DueSoftResetActsFirst := by
  intro c s hdue hc
  refine ⟨?_, softResetEffect_softResetDue s⟩
  have hsettled : (softResetEffect s).settled = s.settled := by
    rw [← State.settled_of_due hdue, State.settled_settled]
  cases c with
  | powerOn select guard fallback => exact absurd ⟨select, guard, fallback, rfl⟩ hc
  | _ =>
    simp only [exec, execResetAssert, execResetRelease, execGuardLineChange, execFallbackLineChange, execSelectFall, execSelectRise,
      execReplyComplete, execFramingFault, execCreate, execAmend, execRetire, execRestack, execLock, execPublish, execWithdraw,
      execDiscard, execReadOutcome, execReadRegion, execReadStack, execGuardOn, execGuardOff, execSetTiming, execReadTiming,
      execStartScan, execStopScan, execPointerSettings, execReadTouch, execProbe, execReadStatus, execSetNoteMask, execSoftReset,
      execSoftResetAction, execFrameStart, execPointerTick, execContactTimeout, execLineStart, execCellIssue, execLineEnd,
      execRetraceLine, execStopPoint, execPointerLinkFault, execReportDiscarded, execContact, execLift, execPointerCharacterKept,
      execRequestByteReceived, execReplyByteShifted, hsettled]

/-- Every next state has NOTE as its causes make it. -/
theorem exec_note {c : Instr} {s t : State} (h : exec c s = .next t) : t.pins.note = noteLevel t := by
  by_cases hc : c.isPowerOn
  · obtain ⟨select, guard, fallback, rfl⟩ := hc
    rw [done_eq_next.1 h]
    rfl
  · obtain ⟨u, -, rfl⟩ := exec_happens hc h
    rfl

/-- The news set is not empty exactly when some touch part holds a news flag (R151). -/
theorem newsSlots_isEmpty_eq_false {t : SlotTable} : (newsSlots t).isEmpty = false ↔
    ∃ (i : Fin 32) (q : TouchPart), (slotAt t i).touch = some q
      ∧ (q.news.press = true ∨ q.news.release = true ∨ q.news.releaseAway = true ∨ q.news.cancel = true) := by
  have hslot (i : Fin 32) : (slotAt t i).hasNews = true ↔ ∃ q : TouchPart, (slotAt t i).touch = some q
      ∧ (q.news.press = true ∨ q.news.release = true ∨ q.news.releaseAway = true ∨ q.news.cancel = true) := by
    cases h : (slotAt t i).touch <;> simp [Slot.hasNews, h, News.any, or_assoc]
  simp only [newsSlots, ← Bool.not_eq_true, List.isEmpty_iff, List.filter_eq_nil_iff, List.mem_finRange, forall_const,
    not_forall, not_not, hslot]

/-- Settles O13: NOTE is judged at the end of every command, and its level is read off cause by cause. -/
theorem noteFollowsItsCauses : Obligations.NoteFollowsItsCauses := by
  intro c s t h
  rw [exec_note h, ← newsSlots_isEmpty_eq_false]
  simp only [noteLevel, anyFault, Bool.or_eq_true, Bool.and_eq_true, Bool.not_eq_true', or_assoc]

end Sys2Proof.Machine
end

section
/-! PROOFS. The shapes of the shared operations: what PU, an apply point and the resets write, each in one equation, so that every block they
do not name is seen to be kept. -/

namespace Sys2Proof.Machine
open Sys2Proof

-- One theorem after another, as in the tests: each thread of its own takes a stack and a heap of the checker's memory.
set_option Elab.async false

/-! ### What PU's operations write -/

/-- The state with the touch parts, the contact, the silence count and the last cause that PU gives it. -/
def State.repointed (s : State) (t : SlotTable) (contact : Contact) (silence : Nat) (cause : Option CancelCause) : State :=
  (s.setSlots t).setPu { s.pu with contact := contact, silence := silence, lastCause := cause }

/-- The second state is the first with touch parts, contact, silence count and last cause given anew. -/
def Repoints (s u : State) : Prop :=
  ∃ t contact silence cause, SameRegions s.rgt.slots t ∧ u = s.repointed t contact silence cause

theorem Repoints.refl (s : State) : Repoints s s := ⟨_, s.pu.contact, s.pu.silence, s.pu.lastCause, .refl _, rfl⟩

theorem Repoints.trans {s u v : State} (h : Repoints s u) (h' : Repoints u v) : Repoints s v := by
  obtain ⟨t, c, n, l, ht, rfl⟩ := h
  obtain ⟨t', c', n', l', ht', rfl⟩ := h'
  exact ⟨t', c', n', l', ht.trans ht', rfl⟩

/-- A change of PU's contact record alone. -/
theorem repoints_setPu (s : State) (contact : Contact) (silence : Nat) :
    Repoints s (s.setPu { s.pu with contact := contact, silence := silence }) :=
  ⟨_, contact, silence, s.pu.lastCause, .refl _, rfl⟩

theorem cancelCapture_repoints (cause : CancelCause) (s : State) : Repoints s (cancelCapture cause s) := by
  rcases cancelCapture_cases cause s with ⟨heq, -⟩ | ⟨h, -, heq⟩ <;> rw [heq]
  · exact .refl s
  · exact ⟨_, _, s.pu.silence, _, sameRegions_mapTouch _ _ _, rfl⟩

theorem takeNotice_repoints (dropped : List (Fin 32)) (s : State) : Repoints s (takeNotice dropped s) := by
  rcases takeNotice_cases dropped s with heq | ⟨h, cause, -, -, heq⟩ <;> rw [heq]
  · exact .refl s
  · exact cancelCapture_repoints cause s

/-- PU's tick, but for the frame start that it takes. -/
theorem takeTick_repoints (s : State) : ∃ u, Repoints s u ∧ takeTick s = u.setSe { s.se with tickOwed := false } := by
  rcases hc : s.pu.contact with _ | h | _
  · exact ⟨s, .refl s, takeTick_of_up hc⟩
  · rw [takeTick_of_captured hc]
    refine ⟨_, ?_, rfl⟩
    split_ifs
    · exact ⟨_, _, _, _, sameRegions_mapTouch _ _ _, rfl⟩
    · exact ⟨_, _, _, _, sameRegions_mapTouch _ _ _, rfl⟩
    · exact repoints_setPu s s.pu.contact _
  · rw [takeTick_of_unclaimed hc]
    refine ⟨_, ?_, rfl⟩
    split_ifs
    · exact repoints_setPu s _ _
    · exact repoints_setPu s s.pu.contact _

theorem takeContact_repoints (p : Point) (s : State) : Repoints s (takeContact p s) := by
  unfold takeContact
  split
  · split
    · exact ⟨_, _, _, s.pu.lastCause, sameRegions_mapTouch _ _ _, rfl⟩
    · exact repoints_setPu s _ _
    · exact repoints_setPu s _ _
  · exact ⟨_, s.pu.contact, _, s.pu.lastCause, sameRegions_mapTouch _ _ _, rfl⟩
  · exact repoints_setPu s s.pu.contact _

theorem takeLift_repoints (p : Point) (s : State) : Repoints s (takeLift p s) := by
  unfold takeLift
  split
  · exact repoints_setPu s s.pu.contact _
  · exact ⟨_, _, _, s.pu.lastCause, sameRegions_mapTouch _ _ _, rfl⟩
  · exact repoints_setPu s _ _

theorem disableContact_repoints (s : State) : Repoints s (disableContact s) :=
  (cancelCapture_repoints .disabled s).trans (repoints_setPu _ _ _)

/-- A completed report makes the receiver WAITING, may set a fault flag, and acts on the contact (R135 to R137). -/
theorem reportEffect_repoints (v : ReportVerdict) (s : State) : ∃ link range,
    (s.pu.linkFault = true → link = true) ∧ (s.pu.rangeFault = true → range = true)
      ∧ Repoints (s.setPu { s.pu with receiver := .waiting, linkFault := link, rangeFault := range }) (reportEffect v s) := by
  unfold reportEffect
  split
  · exact ⟨s.pu.linkFault, s.pu.rangeFault, id, id, .refl _⟩
  · exact ⟨true, s.pu.rangeFault, fun _ => rfl, id, .refl _⟩
  · exact ⟨s.pu.linkFault, true, id, fun _ => rfl, .refl _⟩
  · exact ⟨s.pu.linkFault, s.pu.rangeFault, id, id, takeContact_repoints _ _⟩
  · exact ⟨s.pu.linkFault, s.pu.rangeFault, id, id, takeLift_repoints _ _⟩

/-! ### What an apply point writes -/

/-- Everything an apply point writes: a table and an order, the closed change set, PU's contact record, and the model's counter. -/
theorem applySet_writes (s : State) : ∃ t stack result n contact silence cause, applySet s =
    (((s.setRgt { s.rgt with slots := t, stack := stack }).setCsu (s.csu.close result)).setFree n).setPu
      { s.pu with contact := contact, silence := silence, lastCause := cause } := by
  rcases applySet_cases s with ⟨w, -, heq⟩ | ⟨i, code, -, heq⟩ <;> rw [heq]
  · obtain ⟨t, c, m, l, -, h⟩ := takeNotice_repoints w.dropped
      (((s.setRgt { s.rgt with slots := w.slots, stack := w.stack }).setCsu (s.csu.close .applied)).setFree
        (if w.tookFree then w.free + 1 else w.free))
    exact ⟨t, _, _, _, c, m, l, h⟩
  · exact ⟨_, s.rgt.stack, _, s.freeReads, s.pu.contact, s.pu.silence, s.pu.lastCause, rfl⟩

/-! ### What the resets write -/

/-- The table with every touch part cleared (R155). -/
def touchCleared (t : SlotTable) : SlotTable :=
  tabulate fun i => { slotAt t i with touch := (slotAt t i).touch.map fun _ => TouchPart.cleared }

/-- The last cause after a reset: RESET where it cancelled a capture (R149, R155). -/
def Pu.causeAfterReset (p : Pu) : Option CancelCause :=
  match p.contact with
  | .captured _ => some .reset
  | .up => p.lastCause
  | .unclaimed => p.lastCause

/-- PU at a reset, in one equation (R155, R156). -/
theorem pointerReset_eq (s : State) : pointerReset s =
    (s.setSlots (touchCleared s.rgt.slots)).setPu { s.pu with
      contact := .up, silence := 0, linkFault := false, rangeFault := false, lastCause := s.pu.causeAfterReset } := by
  rcases cancelCapture_cases .reset s with ⟨heq, hc⟩ | ⟨h, hc, heq⟩
  · have hcause : s.pu.causeAfterReset = s.pu.lastCause := by
      unfold Pu.causeAfterReset
      split
      · next h hc' => exact absurd hc' (hc h)
      · rfl
      · rfl
    rw [pointerReset, heq, hcause]
    rfl
  · have hcause : s.pu.causeAfterReset = some .reset := by simp [Pu.causeAfterReset, hc]
    have hslots : touchCleared (mapTouch s.rgt.slots h.slot (·.cancelled CancelCause.reset.leavesNews))
        = touchCleared s.rgt.slots := by
      refine slotTable_ext fun i => ?_
      rw [touchCleared, touchCleared, slotAt_tabulate, slotAt_tabulate, slotAt_mapTouch]
      split <;> simp [Function.comp_def]
    rw [pointerReset, heq, hcause, ← hslots]
    rfl

/-- CSU's state after the RESET line or a soft reset (R65, R66). -/
def Csu.emptied (c : Csu) : Csu := if c.setState = .pending then c.close .discarded else { c with changes := [] }

/-- CSU at a reset, in one equation (R65, R66). -/
theorem changeSetReset_eq (s : State) : changeSetReset s =
    (s.setSlots (releaseReservations s.rgt.slots s.csu.changes)).setCsu s.csu.emptied := by
  unfold changeSetReset Csu.emptied
  split <;> rfl

@[simp] theorem Csu.emptied_changes (c : Csu) : c.emptied.changes = [] := by
  unfold Csu.emptied
  split <;> rfl

@[simp] theorem Csu.emptied_setState (c : Csu) : c.emptied.setState = .opened := by
  unfold Csu.emptied
  split
  · rfl
  · cases h : c.setState
    · rfl
    · contradiction

@[simp] theorem Csu.emptied_seq (c : Csu) : c.emptied.seq = c.seq := by
  unfold Csu.emptied
  split <;> rfl

/-- The blocks at the assertion of RESET: released reservations, cleared touch parts, nothing of a line (R65, R97, R118, R155). -/
theorem blocksReset_eq (s : State) : blocksReset s =
    dropLine ((((s.setSlots (touchCleared (releaseReservations s.rgt.slots s.csu.changes))).setCsu s.csu.emptied).setPu
      { s.pu with
        contact := .up, silence := 0, linkFault := false, rangeFault := false, lastCause := s.pu.causeAfterReset }).setSe
      s.se.halted) := by
  rw [blocksReset, pointerReset_eq, changeSetReset_eq]
  rfl

/-- The part at the assertion of RESET (R183). -/
theorem resetAsserted_eq (s : State) : resetAsserted s =
    ((blocksReset s).setHp s.hp.resetAsserted).setPins { (blocksReset s).pins with sdo := s.hp.freshSdo } := by
  rw [resetAsserted, blocksReset_eq]
  rfl

/-- The table after the regions that a soft reset retires have gone to FREE (R26). -/
def softRetiredTable (r : Rgt) (t : SlotTable) : SlotTable :=
  tabulate fun i => if (slotAt t i).softRetired r.guardInForce then (slotAt t i).freed else slotAt t i

/-- The slots after a soft reset: the reservations released, the regions it names retired, the touch parts cleared (R26, R66, R156). -/
def softResetSlots (s : State) : SlotTable :=
  touchCleared (softRetiredTable s.rgt (releaseReservations s.rgt.slots s.csu.changes))

/-- The soft reset, in one equation (R181). -/
theorem softResetEffect_eq (s : State) : softResetEffect s =
    (dropLine (((((s.setRgt { s.rgt with
        slots := softResetSlots s
        stack := s.rgt.stack.filter fun h =>
          !(slotAt (releaseReservations s.rgt.slots s.csu.changes) h.slot).softRetired s.rgt.guardInForce }).setCsu
      s.csu.emptied).setPu
      { s.pu with
        contact := .up, silence := 0, linkFault := false, rangeFault := false, lastCause := s.pu.causeAfterReset }).setSe
      s.se.halted))).setHp { s.hp.clearFaults with softResetDue := false } := by
  rw [softResetEffect, pointerReset_eq, changeSetReset_eq]
  rfl

/-- The settled state: a soft reset that is due has acted (R180). -/
theorem State.settled_cases (s : State) :
    s.hp.softResetDue = false ∧ s.settled = s ∨ s.hp.softResetDue = true ∧ s.settled = softResetEffect s := by
  cases h : s.hp.softResetDue
  · exact .inl ⟨rfl, State.settled_of_not_due h⟩
  · exact .inr ⟨rfl, State.settled_of_due h⟩

end Sys2Proof.Machine
end

section
/-! PROOFS. The stacking order: its bands, where a CREATE and a RESTACK put a handle, and that the order still matches the table (R27, R28,
R30, R31). -/

namespace Sys2Proof.Machine
open Sys2Proof

-- One theorem after another, as in the tests: each thread of its own takes a stack and a heap of the checker's memory.
set_option Elab.async false

/-! ### Bands (R28) -/

/-- Every TELLTALE stands ahead of every ORDINARY region (R28). -/
def Banded (t : SlotTable) (l : List Handle) : Prop :=
  l.Pairwise fun a b => classOf t a = .telltale ∨ classOf t b = .ordinary

theorem RegionClass.eq_ordinary_of_ne {c : RegionClass} (h : c ≠ .telltale) : c = .ordinary := by
  cases c
  · rfl
  · contradiction

@[simp] theorem telltaleCount_nil (t : SlotTable) : telltaleCount t [] = 0 := rfl

theorem telltaleCount_cons (t : SlotTable) (a : Handle) (l : List Handle) :
    telltaleCount t (a :: l) = telltaleCount t l + if classOf t a = .telltale then 1 else 0 := by
  simp [telltaleCount, List.countP_cons]

theorem telltaleCount_le (t : SlotTable) (l : List Handle) : telltaleCount t l ≤ l.length := List.countP_le_length

/-- Behind the telltale count stand ordinary regions only. -/
theorem Banded.ordinary_of_mem_drop {t : SlotTable} {l : List Handle} {n : Nat} {a : Handle} (h : Banded t l)
    (hn : telltaleCount t l ≤ n) (ha : a ∈ l.drop n) : classOf t a = .ordinary := by
  induction l generalizing n with
  | nil => simp at ha
  | cons b l ih =>
    obtain ⟨hb, hl⟩ := List.pairwise_cons.1 h
    rw [telltaleCount_cons] at hn
    cases n with
    | zero =>
      have hbc : classOf t b ≠ .telltale := fun e => by simp [e] at hn
      rcases List.mem_cons.1 ha with rfl | ha
      · exact RegionClass.eq_ordinary_of_ne hbc
      · exact (hb a ha).resolve_left hbc
    | succ n =>
      refine ih hl ?_ ha
      split at hn
      · omega
      · next hbc =>
        have hall : telltaleCount t l = 0 := by
          refine List.countP_eq_zero.2 fun c hc => ?_
          simp [(hb c hc).resolve_left hbc]
        omega

/-- Ahead of the telltale count stand telltales only. -/
theorem Banded.telltale_of_mem_take {t : SlotTable} {l : List Handle} {n : Nat} {a : Handle} (h : Banded t l)
    (hn : n ≤ telltaleCount t l) (ha : a ∈ l.take n) : classOf t a = .telltale := by
  induction l generalizing n with
  | nil => simp at ha
  | cons b l ih =>
    obtain ⟨hb, hl⟩ := List.pairwise_cons.1 h
    rw [telltaleCount_cons] at hn
    cases n with
    | zero => simp at ha
    | succ n =>
      split at hn
      · next hbc =>
        rcases List.mem_cons.1 ha with rfl | ha
        · exact hbc
        · exact ih hl (by omega) ha
      · next hbc =>
        have hall : telltaleCount t l = 0 := by
          refine List.countP_eq_zero.2 fun c hc => ?_
          simp [(hb c hc).resolve_left hbc]
        omega

/-- A place lies in the band of a class (R28, R31). -/
def InBand (t : SlotTable) (l : List Handle) (c : RegionClass) (n : Nat) : Prop := bandFront t l c ≤ n ∧ n ≤ bandBack t l c

/-- The place of a region of a class lies in the band of the class, and so does the place right behind it. -/
theorem Banded.inBand_idxOf {t : SlotTable} {l : List Handle} {a : Handle} (h : Banded t l) (ha : a ∈ l) :
    InBand t l (classOf t a) (l.idxOf a) ∧ InBand t l (classOf t a) (l.idxOf a + 1) := by
  have hlt : l.idxOf a < l.length := List.idxOf_lt_length_iff.2 ha
  cases hc : classOf t a with
  | telltale =>
    have hcount : l.idxOf a < telltaleCount t l := by
      by_contra hn
      have hmem : a ∈ l.drop (l.idxOf a) := by
        rw [List.drop_eq_getElem_cons hlt, List.getElem_idxOf]
        exact List.mem_cons_self
      simp [h.ordinary_of_mem_drop (by omega) hmem] at hc
    simp only [InBand, bandFront, bandBack]
    omega
  | ordinary =>
    have hcount : telltaleCount t l ≤ l.idxOf a := by
      by_contra hn
      have hmem : a ∈ l.take (l.idxOf a + 1) := List.mem_take_iff_getElem.2 ⟨l.idxOf a, by omega, List.getElem_idxOf _⟩
      simp [h.telltale_of_mem_take (by omega) hmem] at hc
    simp only [InBand, bandFront, bandBack]
    omega

/-! ### Inserting a handle -/

theorem insertAt_perm (l : List Handle) (n : Nat) (h : Handle) : (insertAt l n h).Perm (h :: l) := by
  rw [insertAt]
  exact List.perm_middle.trans (by rw [List.take_append_drop])

theorem mem_insertAt {l : List Handle} {n : Nat} {a h : Handle} : a ∈ insertAt l n h ↔ a = h ∨ a ∈ l := by
  rw [(insertAt_perm l n h).mem_iff, List.mem_cons]

/-- Taking the handle out again leaves the list it was put into. -/
theorem erase_insertAt {l : List Handle} {n : Nat} {h : Handle} (hl : h ∉ l) : (insertAt l n h).erase h = l := by
  rw [insertAt, List.erase_append_right _ fun hm => hl (List.mem_of_mem_take hm), List.erase_cons_head, List.take_append_drop]

/-- A list filtered without the inserted handle. -/
theorem filter_insertAt {l : List Handle} {n : Nat} {h : Handle} {p : Handle → Bool} (hp : p h = false) :
    (insertAt l n h).filter p = l.filter p := by
  rw [insertAt, List.filter_append, List.filter_cons_of_neg (by simp [hp]), ← List.filter_append, List.take_append_drop]

/-- A handle put at a place of its band keeps the bands (R28). -/
theorem Banded.insertAt {t : SlotTable} {l : List Handle} {n : Nat} {h : Handle} (hl : Banded t l)
    (hn : InBand t l (classOf t h) n) : Banded t (insertAt l n h) := by
  have hsplit : Banded t (l.take n ++ l.drop n) := by rwa [List.take_append_drop]
  obtain ⟨htake, hdrop, hcross⟩ := List.pairwise_append.1 hsplit
  obtain ⟨hfront, hback⟩ := hn
  refine List.pairwise_append.2 ⟨htake, List.pairwise_cons.2 ⟨fun b hb => ?_, hdrop⟩, fun a ha b hb => ?_⟩
  · cases hc : classOf t h with
    | telltale => exact .inl rfl
    | ordinary => rw [hc] at hfront; exact .inr (hl.ordinary_of_mem_drop hfront hb)
  · rcases List.mem_cons.1 hb with rfl | hb
    · cases hc : classOf t b with
      | telltale => rw [hc] at hback; exact .inl (hl.telltale_of_mem_take hback ha)
      | ordinary => exact .inr rfl
    · exact hcross a ha b hb

/-! ### RESTACK (R31) -/

/-- The place of a RESTACK's target on the list without it (R31; log entry 4 for a ref that stands in no list). -/
def restackPlace (free : Nat) (t : SlotTable) (rest : List Handle) (target : Handle) : Position → Nat
  | .front => bandFront t rest (classOf t target)
  | .back => bandBack t rest (classOf t target)
  | .above ref => if ref ∈ rest then rest.idxOf ref else unplacedPlace free t rest target ref true
  | .below ref => if ref ∈ rest then rest.idxOf ref + 1 else unplacedPlace free t rest target ref false

/-- A RESTACK takes its target out and puts it in at its place. -/
theorem restackList_eq (free : Nat) (t : SlotTable) (stack : List Handle) (target : Handle) (p : Position) :
    restackList free t stack target p =
      insertAt (stack.erase target) (restackPlace free t (stack.erase target) target p) target := by
  cases p with
  | front | back => rfl
  | above ref | below ref =>
    simp only [restackList, restackPlace]
    split <;> rfl

/-- A free place lies in the target's band (log entry 4). -/
theorem inBand_unplacedPlace (free : Nat) (t : SlotTable) (rest : List Handle) (target ref : Handle) (above : Bool) :
    InBand t rest (classOf t target) (unplacedPlace free t rest target ref above) := by
  have hband : bandFront t rest (classOf t target) ≤ bandBack t rest (classOf t target) := by
    have := telltaleCount_le t rest
    cases classOf t target <;> simp [bandFront, bandBack, this]
  have hmod := Nat.mod_lt (Config.unplacedRef free target.toByte ref.toByte above)
    (Nat.succ_pos (bandBack t rest (classOf t target) - bandFront t rest (classOf t target)))
  simp only [InBand, unplacedPlace]
  simp only [Nat.succ_eq_add_one] at hmod
  omega

/-- The region that a position names is of the target's class, if the position names one (R32, check 5). -/
def Position.sameBand (t : SlotTable) (target : Handle) : Position → Prop
  | .front => True
  | .back => True
  | .above ref => classOf t ref = classOf t target
  | .below ref => classOf t ref = classOf t target

/-- The place of a RESTACK lies in the target's band, its ref being of the target's class. -/
theorem inBand_restackPlace {t : SlotTable} {rest : List Handle} {target : Handle} {p : Position} (free : Nat)
    (h : Banded t rest) (hp : p.sameBand t target) :
    InBand t rest (classOf t target) (restackPlace free t rest target p) := by
  have hcount := telltaleCount_le t rest
  cases p with
  | front => cases hc : classOf t target <;> simp [InBand, restackPlace, bandFront, bandBack, hc, hcount]
  | back => cases hc : classOf t target <;> simp [InBand, restackPlace, bandFront, bandBack, hc, hcount]
  | above ref =>
    simp only [restackPlace]
    split
    · next hm => exact hp ▸ (h.inBand_idxOf hm).1
    · exact inBand_unplacedPlace _ _ _ _ _ _
  | below ref =>
    simp only [restackPlace]
    split
    · next hm => exact hp ▸ (h.inBand_idxOf hm).2
    · exact inBand_unplacedPlace _ _ _ _ _ _

theorem restackList_perm {free : Nat} {t : SlotTable} {stack : List Handle} {target : Handle} {p : Position}
    (h : target ∈ stack) : (restackList free t stack target p).Perm stack := by
  rw [restackList_eq]
  exact (insertAt_perm _ _ _).trans (List.perm_cons_erase h).symm

theorem Banded.erase {t : SlotTable} {l : List Handle} (h : Banded t l) (a : Handle) : Banded t (l.erase a) :=
  List.Pairwise.sublist List.erase_sublist h

theorem Banded.restackList {free : Nat} {t : SlotTable} {stack : List Handle} {target : Handle} {p : Position}
    (h : Banded t stack) (hp : p.sameBand t target) : Banded t (restackList free t stack target p) := by
  rw [restackList_eq]
  exact (h.erase target).insertAt (inBand_restackPlace free (h.erase target) hp)

/-! ### The order and the table (R27) -/

theorem isLive_iff {t : SlotTable} {h : Handle} :
    isLive t h = true ↔ (slotAt t h.slot).gen = h.gen ∧ (slotAt t h.slot).state = .live := by
  simp [isLive]

theorem isCurrent_iff {t : SlotTable} {h : Handle} :
    isCurrent t h = true ↔ (slotAt t h.slot).gen = h.gen ∧ (slotAt t h.slot).state ≠ .free := by
  simp [isCurrent]

/-- A handle is its slot's when it has the slot's generation. -/
theorem handleOf_eq {t : SlotTable} {h : Handle} (hg : (slotAt t h.slot).gen = h.gen) : handleOf t h.slot = h := by
  rw [handleOf, hg]

/-- A LIVE slot's handle stands in the order. -/
theorem StackMatches.handleOf_mem {t : SlotTable} {stack : List Handle} (hs : StackMatches t stack) {i : Fin 32}
    (hl : (slotAt t i).state = .live) : handleOf t i ∈ stack := by
  obtain ⟨-, -, hmem, -⟩ := hs
  exact hmem i hl

/-- A LIVE region's handle stands in the order. -/
theorem StackMatches.mem_of_isLive {t : SlotTable} {stack : List Handle} {h : Handle} (hs : StackMatches t stack)
    (hl : isLive t h = true) : h ∈ stack := by
  obtain ⟨hg, hlive⟩ := isLive_iff.1 hl
  rw [← handleOf_eq hg]
  exact hs.handleOf_mem hlive

theorem StackMatches.live_of_mem {t : SlotTable} {stack : List Handle} {h : Handle} (hs : StackMatches t stack)
    (hm : h ∈ stack) : (slotAt t h.slot).state = .live :=
  (isLive_iff.1 (hs.2.1 h hm)).2

theorem StackMatches.banded {t : SlotTable} {stack : List Handle} (hs : StackMatches t stack) : Banded t stack := by
  obtain ⟨-, -, -, hbanded⟩ := hs
  exact hbanded

/-- The bands are read from the classes. -/
theorem Banded.congr {t u : SlotTable} {l : List Handle} (h : Banded t l) (hc : ∀ a ∈ l, classOf u a = classOf t a) :
    Banded u l :=
  List.Pairwise.imp_of_mem (fun ha hb hab => by rwa [hc _ ha, hc _ hb]) h

/-- A table with the same LIVE regions in the same classes is matched by the same order. -/
theorem StackMatches.of_same_live {t u : SlotTable} {stack : List Handle} (h : StackMatches t stack)
    (hkept : ∀ i, (slotAt t i).state = .live → (slotAt u i).state = .live ∧ (slotAt u i).gen = (slotAt t i).gen
      ∧ (slotAt u i).record.cls = (slotAt t i).record.cls)
    (hback : ∀ i, (slotAt u i).state = .live → (slotAt t i).state = .live) : StackMatches u stack := by
  have hlive (a : Handle) (ha : a ∈ stack) := hkept a.slot (h.live_of_mem ha)
  refine ⟨h.1, fun a ha => ?_, fun i hi => ?_, h.banded.congr fun a ha => (hlive a ha).2.2⟩
  · obtain ⟨hs, hg, -⟩ := hlive a ha
    exact isLive_iff.2 ⟨hg.trans (isLive_iff.1 (h.2.1 a ha)).1, hs⟩
  · have hmem := h.handleOf_mem (hback i hi)
    rwa [handleOf, ← (hkept i (hback i hi)).2.1] at hmem

/-- A change of touch parts leaves the order matching. -/
theorem StackMatches.of_sameRegions {t u : SlotTable} {stack : List Handle} (h : StackMatches t stack) (hu : SameRegions t u) :
    StackMatches u stack := by
  refine h.of_same_live (fun i hi => ?_) fun i hi => hu.state_eq i ▸ hi
  obtain ⟨q, hq⟩ := hu i
  rw [hq]
  exact ⟨hi, rfl, rfl⟩

/-- A slot replaced, with LIVE kept and no LIVE gained, leaves the order matching. -/
theorem StackMatches.replaceSlot {t : SlotTable} {stack : List Handle} {i : Fin 32} {x : Slot} (h : StackMatches t stack)
    (hlive : x.state = .live ↔ (slotAt t i).state = .live)
    (hkept : (slotAt t i).state = .live → x.gen = (slotAt t i).gen ∧ x.record.cls = (slotAt t i).record.cls) :
    StackMatches (putSlot t i x) stack := by
  refine h.of_same_live (fun j hj => ?_) fun j hj => ?_
  · by_cases e : j = i
    · subst e; rw [slotAt_putSlot_self]; exact ⟨hlive.2 hj, hkept hj⟩
    · rw [slotAt_putSlot_of_ne e]; exact ⟨hj, rfl, rfl⟩
  · by_cases e : j = i
    · subst e; rw [slotAt_putSlot_self] at hj; exact hlive.1 hj
    · rwa [slotAt_putSlot_of_ne e] at hj

/-- Only RESERVED slots are released. -/
theorem StackMatches.release {t : SlotTable} {stack : List Handle} (h : StackMatches t stack)
    (changes : List Change) : StackMatches (releaseReservations t changes) stack := by
  refine h.of_same_live (fun i hi => ?_) fun i hi => ?_
  · simp [hi]
  · rw [slotAt_releaseReservations] at hi
    split at hi
    · simp at hi
    · exact hi

/-- A table whose slots are freed where a test says so is matched by the order of the others. -/
theorem StackMatches.retire {t u : SlotTable} {stack : List Handle} {gone : Fin 32 → Bool} (h : StackMatches t stack)
    (hkept : ∀ i, gone i = false → slotAt u i = slotAt t i)
    (hgone : ∀ i, gone i = true → (slotAt u i).state ≠ .live) :
    StackMatches u (stack.filter fun a => !gone a.slot) := by
  have hmem {a : Handle} (ha : a ∈ stack.filter fun a => !gone a.slot) : a ∈ stack ∧ slotAt u a.slot = slotAt t a.slot := by
    obtain ⟨hs, hg⟩ := List.mem_filter.1 ha
    exact ⟨hs, hkept _ (by simpa using hg)⟩
  refine ⟨h.1.filter _, fun a ha => ?_, fun i hi => ?_, ?_⟩
  · obtain ⟨hs, heq⟩ := hmem ha
    rw [isLive, heq]
    exact h.2.1 a hs
  · have hi' : gone i = false := by
      by_contra hc
      exact hgone i (by simpa using hc) hi
    rw [hkept i hi'] at hi
    rw [handleOf, hkept i hi']
    exact List.mem_filter.2 ⟨h.handleOf_mem hi, by simp [hi']⟩
  · refine Banded.congr (t := t) (List.Pairwise.sublist List.filter_sublist h.banded) fun a ha => ?_
    rw [classOf, (hmem ha).2, classOf]

/-- The order with the handle of a freed slot taken out (R33). -/
theorem StackMatches.retireOne {t : SlotTable} {stack : List Handle} {a : Handle} {x : Slot} (h : StackMatches t stack)
    (ha : isLive t a = true) (hx : x.state ≠ .live) : StackMatches (putSlot t a.slot x) (stack.erase a) := by
  have hfilter : stack.erase a = stack.filter fun b => !(b.slot == a.slot) := by
    rw [h.1.erase_eq_filter]
    refine List.filter_congr fun b hb => ?_
    have hiff : b = a ↔ b.slot = a.slot := by
      refine ⟨fun e => e ▸ rfl, fun e => ?_⟩
      have hb' := (isLive_iff.1 (h.2.1 b hb)).1
      rw [← handleOf_eq hb', e, handleOf_eq (isLive_iff.1 ha).1]
    rw [Bool.eq_iff_iff]
    simp [hiff]
  rw [hfilter]
  refine h.retire (gone := fun i => i == a.slot) (fun i hi => ?_) fun i hi => ?_
  · exact slotAt_putSlot_of_ne (by simpa using hi)
  · rw [eq_of_beq hi, slotAt_putSlot_self]; exact hx

/-- A slot that becomes LIVE, with its handle at the front of its band (R30). -/
theorem StackMatches.create {t : SlotTable} {stack : List Handle} {a : Handle} {x : Slot} (h : StackMatches t stack)
    (ha : (slotAt t a.slot).state ≠ .live) (hx : x.state = .live) (hg : x.gen = a.gen) :
    StackMatches (putSlot t a.slot x) (placeNew t stack x.record.cls a) := by
  have hne {b : Handle} (hb : b ∈ stack) : b.slot ≠ a.slot := fun e => ha (e ▸ h.live_of_mem hb)
  have hnew : a ∉ stack := fun hm => hne hm rfl
  have hclass {b : Handle} (hb : b ∈ stack) : classOf (putSlot t a.slot x) b = classOf t b := by
    rw [classOf, slotAt_putSlot_of_ne (hne hb), classOf]
  have hcount : telltaleCount (putSlot t a.slot x) stack = telltaleCount t stack :=
    List.countP_congr fun b hb => by rw [hclass hb]
  have hself : classOf (putSlot t a.slot x) a = x.record.cls := by rw [classOf, slotAt_putSlot_self]
  refine ⟨(insertAt_perm _ _ _).nodup_iff.2 (List.nodup_cons.2 ⟨hnew, h.1⟩), fun b hb => ?_, fun i hi => ?_, ?_⟩
  · rcases mem_insertAt.1 hb with rfl | hb
    · exact isLive_iff.2 (by rw [slotAt_putSlot_self]; exact ⟨hg, hx⟩)
    · rw [isLive, slotAt_putSlot_of_ne (hne hb)]; exact h.2.1 b hb
  · by_cases e : i = a.slot
    · subst e
      rw [handleOf, slotAt_putSlot_self, hg]
      exact mem_insertAt.2 (.inl rfl)
    · rw [slotAt_putSlot_of_ne e] at hi
      rw [handleOf, slotAt_putSlot_of_ne e]
      exact mem_insertAt.2 (.inr (h.handleOf_mem hi))
  · have hband : Banded (putSlot t a.slot x) stack := h.banded.congr fun b hb => hclass hb
    refine hband.insertAt ?_
    have hle := telltaleCount_le t stack
    rw [hself]
    cases x.record.cls <;> simp [InBand, bandFront, bandBack, hcount, hle]

/-- A RESTACK of a LIVE region beside one of its class keeps the order matching (R31). -/
theorem StackMatches.restack {t : SlotTable} {stack : List Handle} {a : Handle} {p : Position} (free : Nat)
    (h : StackMatches t stack) (ha : isLive t a = true) (hp : p.sameBand t a) :
    StackMatches t (restackList free t stack a p) := by
  have hperm : (restackList free t stack a p).Perm stack := restackList_perm (h.mem_of_isLive ha)
  refine ⟨hperm.nodup_iff.2 h.1, fun b hb => h.2.1 b (hperm.mem_iff.1 hb),
    fun i hi => hperm.mem_iff.2 (h.handleOf_mem hi), h.banded.restackList hp⟩

end Sys2Proof.Machine
end

section
/-! PROOFS. The laws of the region table, of the staging list and of the touch parts, put together slot by slot, and that the operations of PU
and the resets keep them. -/

namespace Sys2Proof.Machine
open Sys2Proof

-- One theorem after another, as in the tests: each thread of its own takes a stack and a heap of the checker's memory.
set_option Elab.async false

/-! ### The laws slot by slot -/

/-- A touch part of the region with a handle, while this is the contact (R140, R142). -/
structure PartOk (c : Contact) (h : Handle) (q : TouchPart) : Prop where
  press : q.press.inRange
  last : q.last.inRange
  count : q.activations ≤ 15
  held : q.state ≠ .idle → c = .captured h

/-- A slot by itself: what it holds, and that its record fits the displayed area and lies in its ranges (R1, R6, R10, R15, R17, R142). -/
structure SlotOk (area : Option (Nat × Nat)) (c : Contact) (i : Fin 32) (x : Slot) : Prop where
  law : SlotLaw x
  fits : x.state = .live → recordFits area x.record = true
  inRange : x.state ≠ .free → x.record.inRange
  parts : ∀ q, x.touch = some q → PartOk c ⟨i, x.gen⟩ q

/-- The staging list against the table: `StagingLaw` but for the scan (R1, R40, R41, R45). -/
def ListLaw (t : SlotTable) (changes : List Change) : Prop :=
  changes.length ≤ 16
    ∧ changes.map Change.index = List.range changes.length
    ∧ (∀ i : Fin 32, (slotAt t i).state = .reserved ↔ ∃ c ∈ changes, c.createsSlot i = true)
    ∧ (∀ c ∈ changes, c.fitsTable t)
    ∧ changes.Pairwise fun a b => b.isCreate = true → a.target.slot ≠ b.target.slot

theorem ListLaw.reserved_iff {t : SlotTable} {changes : List Change} (h : ListLaw t changes) {i : Fin 32} :
    (slotAt t i).state = .reserved ↔ ∃ c ∈ changes, c.createsSlot i = true := by
  obtain ⟨-, -, hreserved, -⟩ := h
  exact hreserved i

theorem ListLaw.fits {t : SlotTable} {changes : List Change} (h : ListLaw t changes) {c : Change} (hc : c ∈ changes) :
    c.fitsTable t := by
  obtain ⟨-, -, -, hfits, -⟩ := h
  exact hfits c hc

/-- The captured region (R140). -/
def HeldOk (t : SlotTable) (c : Contact) : Prop :=
  ∀ h : Handle, c = .captured h → isLive t h = true ∧ isVisible t h = true
    ∧ (slotAt t h.slot).record.touchMode = .accept ∧ ∃ q, (slotAt t h.slot).touch = some q ∧ q.state ≠ .idle

/-- The laws of the table, the order, the staging list and the contact, in a displayed area. -/
structure TableLaws (t : SlotTable) (stack : List Handle) (changes : List Change) (c : Contact) (area : Option (Nat × Nat)) :
    Prop where
  stack : StackMatches t stack
  slots : ∀ i, SlotOk area c i (slotAt t i)
  list : ListLaw t changes
  groups : ∀ b ∈ changes, ∀ g, b.op = .amend g → g.inRange
  held : HeldOk t c

/-- The contact's counters (R138, R146). -/
def PuLaw (p : Pu) : Prop :=
  (p.contact = .up → p.silence = 0) ∧ p.silence < 15 ∧ 1 ≤ p.timeout ∧ p.timeout ≤ 15 ∧ (p.enable = false → p.contact = .up)

/-- A valid timing set lies in its ranges (R80). -/
def TimingLaw (e : Se) : Prop := e.timingValid = true → e.timing.fieldsInRange = true ∧ e.timing.fieldsRelate = true

/-- The laws of the state but for NOTE, which the end of every command judges: they hold between the parts of a command too. -/
structure State.Laws (s : State) : Prop where
  table : TableLaws s.rgt.slots s.rgt.stack s.csu.changes s.pu.contact s.se.area
  pu : PuLaw s.pu
  timing : TimingLaw s.se
  waiting : s.csu.setState = .pending → s.se.scan ≠ .stopped
  scan : ScanLaw s.se
  line : LineLaw s
  port : PortLaw s.hp
  sdo : SdoLaw s
  receiver : ReceiverLaw s.pu.receiver

theorem State.Inv.laws {s : State} (h : s.Inv) : s.Laws where
  table :=
    { stack := h.stack
      slots := fun i =>
        { law := h.slots i
          fits := h.area.1 i
          inRange := h.ranges.1 i
          parts := fun q hq =>
            { press := (h.ranges.2.2 i q hq).1
              last := (h.ranges.2.2 i q hq).2
              count := (h.touch.2.1 i q hq).1
              held := (h.touch.2.1 i q hq).2 } }
      list := by
        obtain ⟨hlen, hindex, hres, hfits, hahead, -⟩ := h.staging
        exact ⟨hlen, hindex, hres, hfits, hahead⟩
      groups := h.ranges.2.1
      held := h.touch.1 }
  pu := h.touch.2.2
  timing := h.area.2
  waiting := by
    obtain ⟨-, -, -, -, -, hwaiting⟩ := h.staging
    exact hwaiting
  scan := h.scan
  line := h.line
  port := h.port
  sdo := h.sdo
  receiver := h.receiver

theorem State.Laws.stagingLaw {s : State} (h : s.Laws) : StagingLaw s := by
  obtain ⟨hlen, hindex, hres, hfits, hahead⟩ := h.table.list
  exact ⟨hlen, hindex, hres, hfits, hahead, h.waiting⟩

theorem State.Laws.touchLaw {s : State} (h : s.Laws) : TouchLaw s :=
  ⟨h.table.held, fun i q hq => ⟨((h.table.slots i).parts q hq).count, ((h.table.slots i).parts q hq).held⟩, h.pu⟩

theorem State.Laws.areaLaw {s : State} (h : s.Laws) : AreaLaw s := ⟨fun i => (h.table.slots i).fits, h.timing⟩

theorem State.Laws.rangeLaw {s : State} (h : s.Laws) : RangeLaw s :=
  ⟨fun i => (h.table.slots i).inRange, h.table.groups,
    fun i q hq => ⟨((h.table.slots i).parts q hq).press, ((h.table.slots i).parts q hq).last⟩⟩

/-! ### Records -/

/-- The record conditions, one by one (R17). -/
theorem recordFits_iff {area : Option (Nat × Nat)} {d : RegionRecord} : recordFits area d = true ↔
    (∃ columns lines, area = some (columns, lines)
      ∧ d.rect.left + d.rect.width ≤ columns ∧ d.rect.top + d.rect.height ≤ lines)
      ∧ d.rect.width ≤ d.source.stride
      ∧ (d.source.kind = .bitmap → d.cursor = none)
      ∧ (d.source.kind = .text → d.source.scroll < d.source.cellHeight) := by
  rcases area with _ | ⟨columns, lines⟩
  · simp [recordFits]
  · cases hk : d.source.kind <;> simp [recordFits, Rect.inside, hk, and_assoc]

/-- A change that the record conditions do not judge leaves them as they were (R17). -/
theorem recordFits_amendRecord_of_not_judged {area : Option (Nat × Nat)} {g : Group} (hg : g.judged = false) (r : RegionRecord) :
    recordFits area (amendRecord g r) = recordFits area r := by
  cases g with
  | look l | touch m => rfl
  | _ => simp [Group.judged] at hg

/-- A record in its ranges amended by a group in its ranges is in its ranges, where the record conditions hold of it (R17, R18). -/
theorem amendRecord_inRange {area : Option (Nat × Nat)} {g : Group} {r : RegionRecord} (hr : r.inRange) (hg : g.inRange)
    (hf : recordFits area (amendRecord g r) = true) : (amendRecord g r).inRange := by
  obtain ⟨hrect, hsource, hcursor, hstride, hbitmap⟩ := hr
  obtain ⟨-, hstride', hbitmap', htext'⟩ := recordFits_iff.1 hf
  cases g with
  | geometry x => exact ⟨hg, hsource, hcursor, hstride', hbitmap⟩
  | source x => exact ⟨hrect, hg, hcursor, hstride', hbitmap'⟩
  | scroll base offset =>
    obtain ⟨hlow, hhigh, htext, hbits⟩ := hsource
    refine ⟨hrect, ⟨hlow, hhigh, fun hk => ?_, fun hk => ⟨(hbits hk).1, if_pos hk⟩⟩, hcursor, hstride, hbitmap⟩
    exact ⟨(htext hk).1, (htext hk).2.1, htext' hk⟩
  | look x => exact ⟨hrect, hsource, hcursor, hstride, hbitmap⟩
  | cursor x => exact ⟨hrect, hsource, hg, hstride, hbitmap'⟩
  | touch m => exact ⟨hrect, hsource, hcursor, hstride, hbitmap⟩

theorem amendRecord_cls (g : Group) (r : RegionRecord) : (amendRecord g r).cls = r.cls := by cases g <;> rfl

@[simp] theorem amendSlot_state (g : Group) (x : Slot) : (amendSlot g x).state = x.state := by cases g <;> rfl
@[simp] theorem amendSlot_gen (g : Group) (x : Slot) : (amendSlot g x).gen = x.gen := by cases g <;> rfl
@[simp] theorem amendSlot_record (g : Group) (x : Slot) : (amendSlot g x).record = amendRecord g x.record := by cases g <;> rfl

/-- An amended slot keeps its touch part or, where its touch mode changes, is given the one of the new mode (R15, R20). -/
theorem amendSlot_touch (g : Group) (x : Slot) : (amendSlot g x).touch = x.touch ∧ (amendRecord g x.record).touchMode = x.record.touchMode
    ∨ (amendSlot g x).touch = newTouch (amendRecord g x.record).touchMode
      ∧ (x.touch.isSome = true → amendDrops g x = true) := by
  cases g with
  | touch m =>
    by_cases h : m = x.record.touchMode
    · exact .inl ⟨if_pos h, h⟩
    · exact .inr ⟨if_neg h, fun hs => by simp [amendDrops, hs, h]⟩
  | _ => exact .inl ⟨rfl, rfl⟩

/-! ### Single slots -/

theorem partOk_cleared (c : Contact) (h : Handle) : PartOk c h TouchPart.cleared where
  press := by simp [TouchPart.cleared, Point.inRange]
  last := by simp [TouchPart.cleared, Point.inRange]
  count := by simp [TouchPart.cleared]
  held := fun hn => absurd rfl hn

theorem eq_cleared_of_newTouch {m : TouchMode} {q : TouchPart} (h : newTouch m = some q) : q = TouchPart.cleared := by
  unfold newTouch at h
  split at h
  · exact (Option.some.inj h).symm
  · cases h

theorem newTouch_isSome_iff (m : TouchMode) : (newTouch m).isSome = true ↔ m = .accept := by
  unfold newTouch
  split <;> simp [*]

/-- A cleared slot meets every law of a slot (R1). -/
theorem slotOk_cleared (area : Option (Nat × Nat)) (c : Contact) (i : Fin 32) (gen : BitVec 3) :
    SlotOk area c i (Slot.cleared gen) where
  law := ⟨fun _ => rfl, fun h => (nomatch h), fun h => (nomatch h)⟩
  fits := fun h => nomatch h
  inRange := fun h => absurd rfl h
  parts := fun _ h => nomatch h

theorem slotOk_freed (area : Option (Nat × Nat)) (c : Contact) (i : Fin 32) (x : Slot) : SlotOk area c i x.freed :=
  slotOk_cleared area c i _

/-- A LIVE slot comes from these parts (R15, R17). -/
theorem slotOk_live {area : Option (Nat × Nat)} {c : Contact} {i : Fin 32} {x : Slot} (hlive : x.state = .live)
    (hmode : x.touch.isSome = true ↔ x.record.touchMode = .accept) (hfits : recordFits area x.record = true)
    (hrange : x.record.inRange) (hparts : ∀ q, x.touch = some q → PartOk c ⟨i, x.gen⟩ q) : SlotOk area c i x where
  law := ⟨fun h => by simp [hlive] at h, fun h => by simp [hlive] at h, fun _ => hmode⟩
  fits := fun _ => hfits
  inRange := fun _ => hrange
  parts := hparts

/-- A slot under a new displayed area that holds its record (R83). -/
theorem SlotOk.of_area {area area' : Option (Nat × Nat)} {c : Contact} {i : Fin 32} {x : Slot} (h : SlotOk area c i x)
    (hf : x.state = .live → recordFits area' x.record = true) : SlotOk area' c i x :=
  { h with fits := hf }

/-- A RESERVED slot is made of a descriptor in its ranges (R3, R18). -/
theorem slotOk_reserved {area : Option (Nat × Nat)} (c : Contact) (i : Fin 32) (gen : BitVec 3) {d : RegionRecord}
    (hd : d.inRange) (hl : d.locked = false) : SlotOk area c i ⟨.reserved, gen, d, none⟩ where
  law := ⟨fun h => (nomatch h), fun _ => ⟨rfl, hl⟩, fun h => (nomatch h)⟩
  fits := fun h => nomatch h
  inRange := fun _ => hd
  parts := fun _ h => nomatch h

/-- A RESERVED slot that a CREATE makes LIVE (R19). -/
theorem slotOk_created {area : Option (Nat × Nat)} {c : Contact} {i : Fin 32} {gen : BitVec 3} {d : RegionRecord}
    (h : SlotOk area c i ⟨.reserved, gen, d, none⟩) (hf : recordFits area d = true) :
    SlotOk area c i ⟨.live, gen, { d with locked := false }, newTouch d.touchMode⟩ :=
  slotOk_live rfl (newTouch_isSome_iff _) hf (h.inRange (by simp))
    fun q hq => (eq_cleared_of_newTouch hq) ▸ partOk_cleared c _

/-- A LIVE slot amended (R20). -/
theorem SlotOk.amend {area : Option (Nat × Nat)} {c : Contact} {i : Fin 32} {x : Slot} {g : Group} (h : SlotOk area c i x)
    (hlive : x.state = .live) (hg : g.inRange) (hf : g.judged = true → recordFits area (amendRecord g x.record) = true) :
    SlotOk area c i (amendSlot g x) := by
  have hfits : recordFits area (amendRecord g x.record) = true := by
    cases hj : g.judged
    · rw [recordFits_amendRecord_of_not_judged hj]; exact h.fits hlive
    · exact hf hj
  have hrange := amendRecord_inRange (h.inRange (by simp [hlive])) hg hfits
  refine slotOk_live (by simpa using hlive) ?_ (by simpa using hfits) (by simpa using hrange) fun q hq => ?_
  · rcases amendSlot_touch g x with ⟨ht, hm⟩ | ⟨ht, -⟩
    · rw [ht, amendSlot_record, hm]; exact h.law.2.2 hlive
    · rw [ht, amendSlot_record]; exact newTouch_isSome_iff _
  · rw [amendSlot_gen]
    rcases amendSlot_touch g x with ⟨ht, -⟩ | ⟨ht, -⟩
    · exact h.parts q (ht ▸ hq)
    · exact eq_cleared_of_newTouch (ht ▸ hq) ▸ partOk_cleared c _

/-- A LIVE slot locked (R76). -/
theorem SlotOk.lock {area : Option (Nat × Nat)} {c : Contact} {i : Fin 32} {x : Slot} (h : SlotOk area c i x)
    (hlive : x.state = .live) : SlotOk area c i { x with record := { x.record with locked := true } } :=
  slotOk_live hlive (h.law.2.2 hlive) (h.fits hlive) (h.inRange (by simp [hlive])) h.parts

/-! ### Touch parts given anew -/

/-- The second table has the first one's slots with some of their touch parts changed, and none made or dropped. -/
def Retouches (t u : SlotTable) : Prop :=
  ∀ i : Fin 32, ∃ f : TouchPart → TouchPart, slotAt u i = { slotAt t i with touch := (slotAt t i).touch.map f }

theorem retouches_refl (t : SlotTable) : Retouches t t := fun i => ⟨id, by rw [Option.map_id]; rfl⟩

theorem retouches_mapTouch (t : SlotTable) (i : Fin 32) (f : TouchPart → TouchPart) : Retouches t (mapTouch t i f) := by
  intro j
  rw [slotAt_mapTouch]
  split
  · exact ⟨f, rfl⟩
  · exact ⟨id, by rw [Option.map_id]; rfl⟩

theorem retouches_touchCleared (t : SlotTable) : Retouches t (touchCleared t) := fun i => ⟨_, slotAt_tabulate _ i⟩

theorem Retouches.sameRegions {t u : SlotTable} (h : Retouches t u) : SameRegions t u := fun i =>
  let ⟨f, hf⟩ := h i
  ⟨(slotAt t i).touch.map f, hf⟩

/-- A slot whose touch parts are given anew is lawful when the new parts are. -/
theorem SlotOk.retouch {area : Option (Nat × Nat)} {c c' : Contact} {i : Fin 32} {x : Slot} (h : SlotOk area c i x)
    (f : TouchPart → TouchPart) (hf : ∀ q, x.touch.map f = some q → PartOk c' ⟨i, x.gen⟩ q) :
    SlotOk area c' i { x with touch := x.touch.map f } where
  law := by
    obtain ⟨hfree, hreserved, hlive⟩ := h.law
    refine ⟨fun hs => ?_, fun hs => ⟨?_, (hreserved hs).2⟩, fun hs => ?_⟩
    · have hx := hfree hs
      rw [hx]
      rfl
    · simp [(hreserved hs).1]
    · simpa using hlive hs
  fits := h.fits
  inRange := h.inRange
  parts := hf

/-- The staging list reads states, generations and the RESERVED slots. -/
theorem ListLaw.of_same_regions {t u : SlotTable} {changes : List Change} (h : ListLaw t changes)
    (hkept : ∀ i, (slotAt u i).state = (slotAt t i).state ∧ (slotAt u i).gen = (slotAt t i).gen)
    (hreserved : ∀ i, (slotAt t i).state = .reserved → slotAt u i = slotAt t i) : ListLaw u changes := by
  obtain ⟨hlen, hindex, hres, hfits, hahead⟩ := h
  refine ⟨hlen, hindex, fun i => by rw [(hkept i).1]; exact hres i, fun b hb => ?_, hahead⟩
  have hfit := hfits b hb
  unfold Change.fitsTable at hfit ⊢
  split
  · next d hop => rw [hop] at hfit; rw [hreserved _ (by rw [hfit]), hfit]
  · next hop =>
    have hcur : isCurrent t b.target = true := by
      split at hfit
      · next d hop' => exact absurd hop' (hop d)
      · exact hfit
    rw [isCurrent, (hkept _).1, (hkept _).2]
    exact hcur

theorem Retouches.eq_of_reserved {t u : SlotTable} (h : Retouches t u) {i : Fin 32} (hlaw : SlotLaw (slotAt t i))
    (hr : (slotAt t i).state = .reserved) : slotAt u i = slotAt t i := by
  obtain ⟨f, hf⟩ := h i
  have ht := (hlaw.2.1 hr).1
  rw [hf]
  cases hx : slotAt t i
  rw [hx] at ht
  simp only at ht
  rw [ht]
  rfl

/-- Touch parts given anew keep the laws of the table when the new parts and the contact do. -/
theorem TableLaws.retouch {t u : SlotTable} {stack : List Handle} {changes : List Change} {c c' : Contact}
    {area : Option (Nat × Nat)} (h : TableLaws t stack changes c area) (hu : Retouches t u)
    (hparts : ∀ i q, (slotAt u i).touch = some q → PartOk c' ⟨i, (slotAt t i).gen⟩ q) (hheld : HeldOk u c') :
    TableLaws u stack changes c' area where
  stack := h.stack.of_sameRegions hu.sameRegions
  slots := fun i => by
    have hpart := hparts i
    obtain ⟨f, hf⟩ := hu i
    rw [hf] at hpart ⊢
    exact (h.slots i).retouch f hpart
  list := h.list.of_same_regions (fun i => by obtain ⟨f, hf⟩ := hu i; rw [hf]; exact ⟨rfl, rfl⟩)
    fun i hr => hu.eq_of_reserved (h.slots i).law hr
  groups := h.groups
  held := hheld

theorem heldOk_of_not_captured {t : SlotTable} {c : Contact} (hc : ∀ a, c ≠ .captured a) : HeldOk t c :=
  fun a ha => absurd ha (hc a)

/-- A part that is IDLE is lawful under any contact. -/
theorem PartOk.of_idle {c c' : Contact} {a : Handle} {q : TouchPart} (h : PartOk c a q) (hq : q.state = .idle) : PartOk c' a q :=
  { h with held := fun hn => absurd hq hn }

/-- A part of a region that is not captured is IDLE, and so lawful under any contact. -/
theorem PartOk.of_not_captured {c c' : Contact} {a : Handle} {q : TouchPart} (h : PartOk c a q) (hc : c ≠ .captured a) :
    PartOk c' a q :=
  h.of_idle (by by_contra hn; exact hc (h.held hn))

/-- With no region captured before or after, the contact may change. -/
theorem TableLaws.of_contact {t : SlotTable} {stack : List Handle} {changes : List Change} {c c' : Contact}
    {area : Option (Nat × Nat)} (h : TableLaws t stack changes c area) (hc : ∀ a, c ≠ .captured a) (hc' : ∀ a, c' ≠ .captured a) :
    TableLaws t stack changes c' area :=
  h.retouch (retouches_refl t) (fun i q hq => ((h.slots i).parts q hq).of_not_captured (hc _)) (heldOk_of_not_captured hc')

/-- The touch part of a slot after a change of one touch part. -/
theorem touch_mapTouch_eq_some {t : SlotTable} {i j : Fin 32} {f : TouchPart → TouchPart} {q : TouchPart}
    (h : (slotAt (mapTouch t j f) i).touch = some q) :
    i = j ∧ (∃ p, (slotAt t i).touch = some p ∧ f p = q) ∨ i ≠ j ∧ (slotAt t i).touch = some q := by
  rw [slotAt_mapTouch] at h
  split at h
  · exact .inl ⟨‹_›, Option.map_eq_some_iff.1 h⟩
  · exact .inr ⟨‹_›, h⟩

/-- The captured region given up (R145, R149): its touch part becomes IDLE. -/
theorem TableLaws.giveUp {t : SlotTable} {stack : List Handle} {changes : List Change} {a : Handle} {c' : Contact}
    {area : Option (Nat × Nat)} {f : TouchPart → TouchPart} (h : TableLaws t stack changes (.captured a) area)
    (hf : ∀ q b, PartOk (.captured a) b q → PartOk c' b (f q)) (hc' : ∀ b, c' ≠ .captured b) :
    TableLaws (mapTouch t a.slot f) stack changes c' area := by
  refine h.retouch (retouches_mapTouch t a.slot f) (fun i q hq => ?_) (heldOk_of_not_captured hc')
  rcases touch_mapTouch_eq_some hq with ⟨rfl, p, hp, rfl⟩ | ⟨hi, hq⟩
  · exact hf p _ ((h.slots _).parts p hp)
  · refine ((h.slots i).parts q hq).of_not_captured fun e => hi ?_
    injection e with e
    rw [e]

theorem PartOk.cancelled {c c' : Contact} {a : Handle} {q : TouchPart} (h : PartOk c a q) (news : Bool) :
    PartOk c' a (q.cancelled news) :=
  ⟨h.press, h.last, h.count, fun hn => absurd rfl hn⟩

theorem PartOk.liftedAt {c c' : Contact} {a : Handle} {q : TouchPart} (h : PartOk c a q) {p : Point} (hp : p.inRange) (inside : Bool) :
    PartOk c' a (q.liftedAt p inside) where
  press := h.press
  last := hp
  count := by
    have := h.count
    simp only [TouchPart.liftedAt]
    split <;> omega
  held := fun hn => absurd rfl hn

/-- A region that a CONTACT captures (R143). -/
theorem TableLaws.press {t : SlotTable} {stack : List Handle} {changes : List Change} {c : Contact} {a : Handle} {p : Point}
    {area : Option (Nat × Nat)} (h : TableLaws t stack changes c area) (hc : ∀ b, c ≠ .captured b) (ha : isLive t a = true)
    (hv : isVisible t a = true) (hm : (slotAt t a.slot).record.touchMode = .accept) (hp : p.inRange) :
    TableLaws (mapTouch t a.slot (·.pressedAt p)) stack changes (.captured a) area := by
  have hg : (⟨a.slot, (slotAt t a.slot).gen⟩ : Handle) = a := handleOf_eq (isLive_iff.1 ha).1
  have hu := retouches_mapTouch t a.slot (·.pressedAt p)
  refine h.retouch hu (fun i q hq => ?_) fun b hb => ?_
  · rcases touch_mapTouch_eq_some hq with ⟨rfl, p', hp', rfl⟩ | ⟨hi, hq⟩
    · exact ⟨hp, hp, ((h.slots _).parts p' hp').count, fun _ => by rw [hg]⟩
    · exact ((h.slots i).parts q hq).of_not_captured (hc _)
  · injection hb with hb
    subst hb
    obtain ⟨q, hq⟩ := Option.isSome_iff_exists.1 (((h.slots a.slot).law.2.2 (isLive_iff.1 ha).2).2 hm)
    refine ⟨?_, ?_, ?_, ?_⟩
    · simpa [isLive] using ha
    · simpa [isVisible] using hv
    · simpa using hm
    · rw [slotAt_mapTouch, if_pos rfl]
      exact ⟨q.pressedAt p, by simp [hq], by simp [TouchPart.pressedAt]⟩

/-- The captured region's touch part given anew, with the capture kept: it stays down (R144, R152). -/
theorem TableLaws.keepCapture {t : SlotTable} {stack : List Handle} {changes : List Change} {c : Contact} {i : Fin 32}
    {area : Option (Nat × Nat)} {f : TouchPart → TouchPart} (h : TableLaws t stack changes c area)
    (hf : ∀ q, PartOk c (handleOf t i) q → PartOk c (handleOf t i) (f q)) (hstate : ∀ q, (f q).state ≠ .idle ∨ (f q).state = q.state) :
    TableLaws (mapTouch t i f) stack changes c area := by
  refine h.retouch (retouches_mapTouch t i f) (fun j q hq => ?_) fun b hb => ?_
  · rcases touch_mapTouch_eq_some hq with ⟨rfl, p, hp, rfl⟩ | ⟨-, hq⟩
    · exact hf p ((h.slots _).parts p hp)
    · exact (h.slots j).parts q hq
  · obtain ⟨hlive, hv, hm, q, hq, hn⟩ := h.held b hb
    refine ⟨by simpa [isLive] using hlive, by simpa [isVisible] using hv, by simpa using hm, ?_⟩
    rw [slotAt_mapTouch]
    split
    · refine ⟨f q, by simp [hq], ?_⟩
      rcases hstate q with h | h
      · exact h
      · rw [h]; exact hn
    · exact ⟨q, hq, hn⟩

/-- Every touch part cleared and the contact UP (R155). -/
theorem TableLaws.clearTouch {t : SlotTable} {stack : List Handle} {changes : List Change} {c : Contact}
    {area : Option (Nat × Nat)} (h : TableLaws t stack changes c area) : TableLaws (touchCleared t) stack changes .up area := by
  refine h.retouch (retouches_touchCleared t) (fun i q hq => ?_) (heldOk_of_not_captured (by simp))
  rw [touchCleared, slotAt_tabulate] at hq
  obtain ⟨p, -, rfl⟩ := Option.map_eq_some_iff.1 hq
  exact partOk_cleared _ _

/-! ### Reservations -/

/-- With no slot RESERVED the empty list fits the table. -/
theorem listLaw_nil {t : SlotTable} (h : ∀ i, (slotAt t i).state ≠ .reserved) : ListLaw t [] :=
  ⟨by simp, rfl, fun i => by simp [h i], by simp, .nil⟩

theorem ListLaw.release_not_reserved {t : SlotTable} {changes : List Change} (h : ListLaw t changes) (i : Fin 32) :
    (slotAt (releaseReservations t changes) i).state ≠ .reserved := by
  rw [slotAt_releaseReservations]
  split
  · simp
  · next hn =>
    intro hr
    exact hn ⟨hr, List.any_eq_true.2 (h.reserved_iff.1 hr)⟩

/-- The captured region is LIVE, and held in a table that keeps its slot. -/
theorem HeldOk.of_live_kept {t u : SlotTable} {c : Contact} (h : HeldOk t c)
    (hu : ∀ i, (slotAt t i).state = .live → slotAt u i = slotAt t i) : HeldOk u c := by
  intro a ha
  obtain ⟨hlive, hv, hm, hq⟩ := h a ha
  have hslot := hu a.slot (isLive_iff.1 hlive).2
  simp only [isLive, isVisible, hslot] at *
  exact ⟨hlive, hv, hm, hq⟩

/-- The reservations released and the list emptied (R49). -/
theorem TableLaws.release {t : SlotTable} {stack : List Handle} {changes : List Change} {c : Contact}
    {area : Option (Nat × Nat)} (h : TableLaws t stack changes c area) :
    TableLaws (releaseReservations t changes) stack [] c area where
  stack := h.stack.release changes
  slots := fun i => by
    rw [slotAt_releaseReservations]
    split
    · exact slotOk_freed _ _ _ _
    · exact h.slots i
  list := listLaw_nil h.list.release_not_reserved
  groups := by simp
  held := h.held.of_live_kept fun i hi => by simp [hi]

/-- The regions that a soft reset retires go to FREE, once the reservations are released and no region is held (R26). -/
theorem TableLaws.softRetire {t : SlotTable} {stack : List Handle} {c : Contact} {area : Option (Nat × Nat)} (r : Rgt)
    (h : TableLaws t stack [] c area) (hc : ∀ a, c ≠ .captured a) :
    TableLaws (softRetiredTable r t) (stack.filter fun a => !(slotAt t a.slot).softRetired r.guardInForce) [] c area where
  stack := by
    refine h.stack.retire (gone := fun i => (slotAt t i).softRetired r.guardInForce) (fun i hi => ?_) fun i hi => ?_
    · simp only [softRetiredTable, slotAt_tabulate, hi]; rfl
    · simp only [softRetiredTable, slotAt_tabulate, hi]; simp
  slots := fun i => by
    rw [softRetiredTable, slotAt_tabulate]
    split
    · exact slotOk_freed _ _ _ _
    · exact h.slots i
  list := listLaw_nil fun i => by
    have hi : (slotAt t i).state ≠ .reserved := fun e => by simpa using h.list.reserved_iff.1 e
    rw [softRetiredTable, slotAt_tabulate]
    split
    · simp
    · exact hi
  groups := by simp
  held := heldOk_of_not_captured hc

/-- Clearing every touch part changes nothing that a soft reset of regions reads, so the two can be taken in either order. -/
theorem touchCleared_softRetiredTable (r : Rgt) (t : SlotTable) :
    touchCleared (softRetiredTable r t) = softRetiredTable r (touchCleared t) := by
  refine slotTable_ext fun i => ?_
  simp only [touchCleared, softRetiredTable, slotAt_tabulate]
  have hsame : ({ slotAt t i with touch := (slotAt t i).touch.map fun _ => TouchPart.cleared } : Slot).softRetired
      r.guardInForce = (slotAt t i).softRetired r.guardInForce := rfl
  rw [hsame]
  split <;> rfl

/-- The table after a soft reset (R181). -/
theorem TableLaws.softReset {s : State} (h : TableLaws s.rgt.slots s.rgt.stack s.csu.changes s.pu.contact s.se.area) :
    TableLaws (softResetSlots s)
      (s.rgt.stack.filter fun a =>
        !(slotAt (releaseReservations s.rgt.slots s.csu.changes) a.slot).softRetired s.rgt.guardInForce) [] .up s.se.area := by
  rw [softResetSlots, touchCleared_softRetiredTable]
  have hsame : (fun a : Handle =>
      !(slotAt (releaseReservations s.rgt.slots s.csu.changes) a.slot).softRetired s.rgt.guardInForce) = fun a =>
      !(slotAt (touchCleared (releaseReservations s.rgt.slots s.csu.changes)) a.slot).softRetired s.rgt.guardInForce := by
    funext a
    simp only [touchCleared, slotAt_tabulate]
    rfl
  rw [hsame]
  exact h.release.clearTouch.softRetire s.rgt (by simp)

/-- A reservation names a FREE slot, which no record of the list does (R3, R45). -/
theorem ListLaw.target_not_free {t : SlotTable} {changes : List Change} (h : ListLaw t changes) {b : Change} (hb : b ∈ changes) :
    (slotAt t b.target.slot).state ≠ .free := by
  have hfit := h.fits hb
  unfold Change.fitsTable at hfit
  split at hfit
  · rw [hfit]; simp
  · exact (isCurrent_iff.1 hfit).2

/-- A record joins the end of the list: its index is the count before it, and the laws of the others stand (R40, R41). -/
theorem listLaw_append {t u : SlotTable} {changes : List Change} {b : Change} (h : ListLaw t changes) (hlen : changes.length < 16)
    (hindex : b.index = changes.length) (hfit : b.fitsTable u)
    (hothers : ∀ a ∈ changes, a.fitsTable t → a.fitsTable u)
    (hreserved : ∀ i, (slotAt u i).state = .reserved ↔ (slotAt t i).state = .reserved ∨ b.createsSlot i = true)
    (hahead : ∀ a ∈ changes, b.isCreate = true → a.target.slot ≠ b.target.slot) : ListLaw u (changes ++ [b]) := by
  obtain ⟨-, hidx, hres, hfits, hpairs⟩ := h
  refine ⟨by simpa using hlen, ?_, fun i => ?_, fun a ha => ?_, ?_⟩
  · simp [hidx, hindex, List.range_succ]
  · rw [hreserved i, hres i]
    constructor
    · rintro (⟨a, ha, hai⟩ | hb)
      · exact ⟨a, List.mem_append_left _ ha, hai⟩
      · exact ⟨b, by simp, hb⟩
    · rintro ⟨a, ha, hai⟩
      rcases List.mem_append.1 ha with ha | ha
      · exact .inl ⟨a, ha, hai⟩
      · exact .inr (List.mem_singleton.1 ha ▸ hai)
  · rcases List.mem_append.1 ha with ha | ha
    · exact hothers a ha (hfits a ha)
    · exact List.mem_singleton.1 ha ▸ hfit
  · refine List.pairwise_append.2 ⟨hpairs, by simp, fun a ha d hd => ?_⟩
    rw [List.mem_singleton.1 hd]
    exact hahead a ha

theorem Change.fitsTable_of_slot_eq {t u : SlotTable} {b : Change} (h : slotAt u b.target.slot = slotAt t b.target.slot)
    (hb : b.fitsTable t) : b.fitsTable u := by
  unfold Change.fitsTable isCurrent at *
  rwa [h]

/-- A staged change of a current region (R45). -/
theorem TableLaws.stage {t : SlotTable} {stack : List Handle} {changes : List Change} {c : Contact} {area : Option (Nat × Nat)}
    {a : Handle} {op : Operation} (h : TableLaws t stack changes c area) (hlen : changes.length < 16)
    (ha : isCurrent t a = true) (hop : ∀ d, op ≠ .create d) (hg : ∀ g, op = .amend g → g.inRange) :
    TableLaws t stack (changes ++ [⟨changes.length, a, op⟩]) c area where
  stack := h.stack
  slots := h.slots
  list := by
    have hcreate : Change.isCreate ⟨changes.length, a, op⟩ = false := by
      cases op with
      | create d => exact absurd rfl (hop d)
      | _ => rfl
    refine listLaw_append h.list hlen rfl ?_ (fun _ _ hfit => hfit) (fun i => ?_) fun b _ hb => ?_
    · unfold Change.fitsTable
      split
      · next d hd => exact absurd hd (hop d)
      · exact ha
    · cases op with
      | create d => exact absurd rfl (hop d)
      | _ => simp [Change.createsSlot]
    · rw [hcreate] at hb; cases hb
  groups := by
    intro b hb g hbg
    rcases List.mem_append.1 hb with hb | hb
    · exact h.groups b hb g hbg
    · rw [List.mem_singleton.1 hb] at hbg
      exact hg g hbg
  held := h.held

/-- A CREATE's reservation of a FREE slot (R3, R47). -/
theorem TableLaws.reserve {t : SlotTable} {stack : List Handle} {changes : List Change} {c : Contact} {area : Option (Nat × Nat)}
    {i : Fin 32} {d : RegionRecord} (h : TableLaws t stack changes c area) (hlen : changes.length < 16)
    (hi : (slotAt t i).state = .free) (hd : d.inRange) (hl : d.locked = false) :
    TableLaws (reserveSlot t i d) stack (changes ++ [⟨changes.length, handleOf t i, .create d⟩]) c area where
  stack := h.stack.replaceSlot (by simp [hi]) fun hlive => by simp [hi] at hlive
  slots := fun j => by
    rw [reserveSlot, slotAt_putSlot]
    split
    · next e => subst e; exact slotOk_reserved c j _ hd hl
    · exact h.slots j
  list := by
    have hne {b : Change} (hb : b ∈ changes) : b.target.slot ≠ i := fun e => h.list.target_not_free hb (e ▸ hi)
    refine listLaw_append h.list hlen rfl ?_ (fun b hb hfit => ?_) (fun j => ?_) fun b hb _ => hne hb
    · show slotAt (putSlot t i _) i = _
      rw [slotAt_putSlot_self]
      rfl
    · exact Change.fitsTable_of_slot_eq (slotAt_putSlot_of_ne (hne hb)) hfit
    · rw [reserveSlot, slotAt_putSlot]
      split
      · next e => simp [e, Change.createsSlot, handleOf]
      · next e => simp [Change.createsSlot, handleOf, Ne.symm e]
  groups := by
    intro b hb g hbg
    rcases List.mem_append.1 hb with hb | hb
    · exact h.groups b hb g hbg
    · rw [List.mem_singleton.1 hb] at hbg
      cases hbg
  held := h.held.of_live_kept fun j hj => by
    refine slotAt_putSlot_of_ne fun e => ?_
    simp [e, hi] at hj

end Sys2Proof.Machine
end

section
/-! PROOFS. The hit test as one search of the effective stacking order (R141), the span list as the runs of one owner (R101, R102), and
the columns at which a new span can begin (R99). -/

namespace Sys2Proof.Machine
open Sys2Proof

-- One theorem after another, as in the tests: each thread of its own takes a stack and a heap of the checker's memory.
set_option Elab.async false

/-! ### The hit test (R141) -/

/-- The entry contains the point and is not passed over (R141). -/
def Entry.stops (s : State) (p : Point) (e : Entry) : Bool := e.contains s p.x p.y && e.touchMode s != .none

/-- What the hit test answers at an entry that is not passed over (R141). -/
def Entry.answer (s : State) (e : Entry) : Hit :=
  match e with
  | .region h => if e.touchMode s = .accept then .hit h else .blocked
  | .fallback => .blocked

theorem Entry.stops_iff {s : State} {p : Point} {e : Entry} :
    e.stops s p = true ↔ e.contains s p.x p.y = true ∧ e.touchMode s ≠ .none := by
  simp [Entry.stops]

theorem Entry.stops_eq_false_iff {s : State} {p : Point} {e : Entry} :
    e.stops s p = false ↔ (e.contains s p.x p.y = true → e.touchMode s = .none) := by
  simp [Entry.stops]

/-- One step of the walk: the answer at an entry that is not passed over, and otherwise the rest of the walk. -/
theorem hitWalk_cons (s : State) (p : Point) (e : Entry) (rest : List Entry) :
    hitWalk s p (e :: rest) = if e.stops s p then e.answer s else hitWalk s p rest := by
  rw [hitWalk.eq_def s p (e :: rest)]
  by_cases hc : e.contains s p.x p.y = true
  · cases e with
    | region h => cases hm : (Entry.region h).touchMode s <;> simp [Entry.stops, Entry.answer, hc, hm]
    | fallback => simp [Entry.stops, Entry.answer, Entry.touchMode, hc]
  · simp [Entry.stops, hc]

/-- The hit test is the answer at the first entry that is not passed over. -/
theorem hitWalk_eq (s : State) (p : Point) (l : List Entry) :
    hitWalk s p l = ((l.find? (Entry.stops s p)).map (Entry.answer s)).getD .none := by
  induction l with
  | nil => rfl
  | cons e rest ih =>
    rw [hitWalk_cons, ih, List.find?_cons]
    cases e.stops s p <;> rfl

theorem hitTest_eq_none_iff {s : State} {p : Point} :
    hitTest s p = .none ↔ ∀ e ∈ effectiveOrder s, e.contains s p.x p.y = true → e.touchMode s = .none := by
  have hanswer (e : Entry) : e.answer s ≠ .none := by
    unfold Entry.answer
    split
    · split <;> simp
    · simp
  rw [hitTest, hitWalk_eq]
  simp only [← Entry.stops_eq_false_iff]
  cases hf : (effectiveOrder s).find? (Entry.stops s p) with
  | none => simpa using hf
  | some e =>
    simp only [Option.map_some, Option.getD_some, hanswer, false_iff, not_forall]
    exact ⟨e, List.mem_of_find?_eq_some hf, by simp [List.find?_some hf]⟩

/-- The first entry of the order that is not passed over, with the entries ahead of it. -/
theorem find_stops_eq_some_iff {s : State} {p : Point} {e : Entry} {l : List Entry} :
    l.find? (Entry.stops s p) = some e ↔ ∃ front back, l = front ++ e :: back ∧ e.contains s p.x p.y = true
      ∧ e.touchMode s ≠ .none ∧ ∀ e' ∈ front, e'.contains s p.x p.y = true → e'.touchMode s = .none := by
  rw [List.find?_eq_some_iff_append, Entry.stops_iff]
  simp only [Bool.not_eq_true', Entry.stops_eq_false_iff]
  constructor
  · rintro ⟨⟨hc, hm⟩, front, back, rfl, hfront⟩
    exact ⟨front, back, rfl, hc, hm, hfront⟩
  · rintro ⟨front, back, rfl, hc, hm, hfront⟩
    exact ⟨⟨hc, hm⟩, front, back, rfl, hfront⟩

theorem hitTest_eq_hit_iff {s : State} {p : Point} {h : Handle} : hitTest s p = .hit h ↔
    ∃ front back, effectiveOrder s = front ++ Entry.region h :: back
      ∧ (Entry.region h).contains s p.x p.y = true ∧ (Entry.region h).touchMode s = .accept
      ∧ ∀ e ∈ front, e.contains s p.x p.y = true → e.touchMode s = .none := by
  have hsearch : hitTest s p = .hit h ↔
      (effectiveOrder s).find? (Entry.stops s p) = some (.region h) ∧ (Entry.region h).touchMode s = .accept := by
    rw [hitTest, hitWalk_eq]
    cases hf : (effectiveOrder s).find? (Entry.stops s p) with
    | none => simp
    | some e =>
      cases e with
      | region g =>
        by_cases hm : (Entry.region g).touchMode s = .accept
        · simp only [Option.map_some, Option.getD_some, Entry.answer, hm, if_true, Hit.hit.injEq, Option.some.injEq,
            Entry.region.injEq]
          exact ⟨fun e => ⟨e, e ▸ hm⟩, fun e => e.1⟩
        · simp only [Option.map_some, Option.getD_some, Entry.answer, hm, if_false, Option.some.injEq, Entry.region.injEq,
            false_iff, reduceCtorEq]
          rintro ⟨rfl, ha⟩
          exact hm ha
      | fallback => simp [Entry.answer]
  rw [hsearch, find_stops_eq_some_iff]
  constructor
  · rintro ⟨⟨front, back, ho, hc, -, hfront⟩, ha⟩
    exact ⟨front, back, ho, hc, ha, hfront⟩
  · rintro ⟨front, back, ho, hc, ha, hfront⟩
    exact ⟨⟨front, back, ho, hc, by simp [ha], hfront⟩, ha⟩

theorem hitTest_eq_blocked_iff {s : State} {p : Point} : hitTest s p = .blocked ↔
    ∃ front e back, effectiveOrder s = front ++ e :: back ∧ e.contains s p.x p.y = true ∧ e.touchMode s = .block
      ∧ ∀ e' ∈ front, e'.contains s p.x p.y = true → e'.touchMode s = .none := by
  have hanswer (e : Entry) (hm : e.touchMode s ≠ .none) : e.answer s = .blocked ↔ e.touchMode s = .block := by
    cases e with
    | region g => cases hg : (Entry.region g).touchMode s <;> simp_all [Entry.answer]
    | fallback => simp [Entry.answer, Entry.touchMode]
  have hsearch : hitTest s p = .blocked ↔
      ∃ e, (effectiveOrder s).find? (Entry.stops s p) = some e ∧ e.touchMode s = .block := by
    rw [hitTest, hitWalk_eq]
    cases hf : (effectiveOrder s).find? (Entry.stops s p) with
    | none => simp
    | some e => simp [hanswer e (Entry.stops_iff.1 (List.find?_some hf)).2]
  simp only [hsearch, find_stops_eq_some_iff]
  constructor
  · rintro ⟨e, ⟨front, back, ho, hc, -, hfront⟩, hb⟩
    exact ⟨front, e, back, ho, hc, hb, hfront⟩
  · rintro ⟨front, e, back, ho, hc, hb, hfront⟩
    exact ⟨e, ⟨front, back, ho, hc, by simp [hb], hfront⟩, hb⟩

/-- Settles O29: the hit test is one search of the effective stacking order, whose answer is known by the touch mode of what is found. -/
theorem hitTestFindsFrontmostAccept : Obligations.HitTestFindsFrontmostAccept := by
  refine fun s p => ⟨fun h => hitTest_eq_hit_iff, hitTest_eq_none_iff, hitTest_eq_blocked_iff, fun hf => ?shown, fun hf => ?fallback,
    fun h => ⟨rfl, rfl⟩, Entry.fallback_contains_iff s p.x p.y, rfl⟩
  case shown => simp [effectiveOrder, hf]
  case fallback =>
    have hfilter (h : Handle) : (classOf s.rgt.slots h == .telltale) = decide (classOf s.rgt.slots h = .telltale) := by
      cases classOf s.rgt.slots h <;> rfl
    simp only [effectiveOrder, hf, if_true, List.filter_filter, hfilter]
    congr 2
    exact List.filter_congr fun h _ => Bool.and_comm _ _

/-- The region that the hit test finds stands in the stacking order, is visible and accepts touch. -/
theorem mem_stack_of_hitTest {s : State} {p : Point} {h : Handle} (hh : hitTest s p = .hit h) :
    h ∈ s.rgt.stack ∧ isVisible s.rgt.slots h = true ∧ (slotAt s.rgt.slots h.slot).record.touchMode = .accept := by
  obtain ⟨front, back, ho, -, hm, -⟩ := hitTest_eq_hit_iff.1 hh
  have hmem : Entry.region h ∈ effectiveOrder s := by rw [ho]; simp
  rw [effectiveOrder_eq_shown] at hmem
  have hshown : h ∈ s.rgt.stack.filter (shown s) := by
    rcases List.mem_append.1 hmem with hmem | hmem
    · obtain ⟨g, hg, he⟩ := List.mem_map.1 hmem
      injection he with he
      exact he ▸ hg
    · split at hmem <;> simp at hmem
  obtain ⟨hstack, hs⟩ := List.mem_filter.1 hshown
  exact ⟨hstack, (shown_iff.1 hs).1, hm⟩

/-! ### The runs of one owner (R102) -/

/-- The spans are the maximal runs of one owner over the columns from `c` up to `n`. -/
def RunsOf (own : Nat → Owner) (n : Nat) : Nat → List Span → Prop
  | c, [] => c = n
  | c, sp :: more => sp.start = c ∧ c ≤ sp.last ∧ (∀ k, c ≤ k → k ≤ sp.last → own k = sp.owner)
    ∧ (∀ b ∈ more.head?, sp.owner ≠ b.owner) ∧ RunsOf own n (sp.last + 1) more

theorem runsOf_runsFrom (own : Nat → Owner) (m c : Nat) :
    RunsOf own (c + m) c (runsFrom c ((List.range' c m).map own)) := by
  induction m generalizing c with
  | zero => rfl
  | succ m ih =>
    have hrest := ih (c + 1)
    rw [show c + 1 + m = c + (m + 1) by omega] at hrest
    rw [List.range'_succ, List.map_cons, runsFrom]
    split
    · next hnil =>
      rw [hnil] at hrest
      exact ⟨rfl, le_rfl, fun k h1 h2 => by rw [Nat.le_antisymm h2 h1], by simp, hrest⟩
    · next sp more hcons =>
      rw [hcons] at hrest
      obtain ⟨hstart, hlast, hown, hhead, hmore⟩ := hrest
      split
      · next heq =>
        refine ⟨rfl, by simp; omega, fun k h1 h2 => ?_, fun b hb => heq ▸ hhead b hb, hmore⟩
        rcases Nat.eq_or_lt_of_le h1 with rfl | h1
        · rfl
        · rw [hown k h1 h2, heq]
      · next hne =>
        exact ⟨rfl, le_rfl, fun k h1 h2 => by rw [Nat.le_antisymm h2 h1], by simpa using fun e => hne e.symm,
          hstart, hlast, hown, hhead, hmore⟩

/-- The span list of a line is the runs of its owners over the displayed columns. -/
theorem runsOf_spanList (s : State) (y : Nat) :
    RunsOf (fun c => ownerOf s (effectiveOrder s) c y) s.se.timing.displayedColumns 0 (spanList s y) := by
  have h := runsOf_runsFrom (fun c => ownerOf s (effectiveOrder s) c y) s.se.timing.displayedColumns 0
  rw [Nat.zero_add, ← List.range_eq_range'] at h
  exact h

section Runs
variable {own : Nat → Owner} {n c : Nat} {spans : List Span}

theorem RunsOf.le (h : RunsOf own n c spans) : c ≤ n := by
  induction spans generalizing c with
  | nil => exact Nat.le_of_eq h
  | cons sp more ih =>
    obtain ⟨-, hlast, -, -, hmore⟩ := h
    have := ih hmore
    omega

theorem RunsOf.head (h : RunsOf own n c spans) (hc : c < n) : ∃ a, spans.head? = some a ∧ a.start = c := by
  cases spans with
  | nil => exact absurd h (Nat.ne_of_lt hc)
  | cons sp more => exact ⟨sp, rfl, h.1⟩

theorem RunsOf.getLast (h : RunsOf own n c spans) (hc : c < n) : ∃ z, spans.getLast? = some z ∧ z.last + 1 = n := by
  induction spans generalizing c with
  | nil => exact absurd h (Nat.ne_of_lt hc)
  | cons sp more ih =>
    obtain ⟨-, -, -, -, hmore⟩ := h
    rcases Nat.eq_or_lt_of_le hmore.le with heq | hlt
    · cases more with
      | nil => exact ⟨sp, rfl, heq⟩
      | cons b rest =>
        obtain ⟨-, hle, -, -, hrest⟩ := hmore
        exact absurd hrest.le (by omega)
    · obtain ⟨z, hz, hn⟩ := ih hmore hlt
      cases more with
      | nil => simp at hz
      | cons b rest => exact ⟨z, by rw [List.getLast?_cons_cons]; exact hz, hn⟩

theorem RunsOf.isChain (h : RunsOf own n c spans) :
    spans.IsChain fun a b => b.start = a.last + 1 ∧ a.owner ≠ b.owner := by
  induction spans generalizing c with
  | nil => exact .nil
  | cons sp more ih =>
    obtain ⟨-, -, -, hhead, hmore⟩ := h
    refine List.isChain_cons.2 ⟨fun b hb => ⟨?_, hhead b hb⟩, ih hmore⟩
    cases more with
    | nil => simp at hb
    | cons d rest => simp only [List.head?_cons, Option.mem_def, Option.some.injEq] at hb; exact hb ▸ hmore.1

theorem RunsOf.of_mem (h : RunsOf own n c spans) {sp : Span} (hsp : sp ∈ spans) :
    c ≤ sp.start ∧ sp.start ≤ sp.last ∧ sp.last < n ∧ ∀ k, sp.start ≤ k → k ≤ sp.last → own k = sp.owner := by
  induction spans generalizing c with
  | nil => simp at hsp
  | cons a more ih =>
    obtain ⟨rfl, hlast, hown, -, hmore⟩ := h
    have hle := hmore.le
    rcases List.mem_cons.1 hsp with rfl | hsp
    · exact ⟨le_rfl, hlast, by omega, hown⟩
    · obtain ⟨hstart, hrest⟩ := ih hmore hsp
      exact ⟨by omega, hrest⟩

theorem RunsOf.spanOwner (h : RunsOf own n c spans) {k : Nat} (hc : c ≤ k) (hn : k < n) : spanOwner spans k = own k := by
  induction spans generalizing c with
  | nil =>
    have hcn : c = n := h
    omega
  | cons sp more ih =>
    obtain ⟨rfl, hlast, hown, -, hmore⟩ := h
    by_cases hk : k ≤ sp.last
    · simp [Sys2Proof.Machine.spanOwner, hc, hk, hown k hc hk]
    · rw [← ih hmore (by omega)]
      simp [Sys2Proof.Machine.spanOwner, hc, hk]

/-- Each span but the first begins where the owner changes, and no two begin at one column. -/
theorem RunsOf.starts (h : RunsOf own n c spans) : (spans.map Span.start).Pairwise (· < ·)
    ∧ ∀ sp ∈ spans.tail, 1 ≤ sp.start ∧ sp.start < n ∧ own (sp.start - 1) ≠ own sp.start := by
  induction spans generalizing c with
  | nil => exact ⟨.nil, by simp⟩
  | cons a more ih =>
    obtain ⟨rfl, hlast, hown, hhead, hmore⟩ := h
    obtain ⟨hpairs, htail⟩ := ih hmore
    refine ⟨List.pairwise_cons.2 ⟨fun k hk => ?_, hpairs⟩, fun sp hsp => ?_⟩
    · obtain ⟨sp, hsp, rfl⟩ := List.mem_map.1 hk
      have := (hmore.of_mem hsp).1
      omega
    · cases more with
      | nil => simp at hsp
      | cons b rest =>
        rcases List.mem_cons.1 hsp with rfl | hsp
        · obtain ⟨hstart, hle, hlt, hown'⟩ := hmore.of_mem List.mem_cons_self
          have hb : sp.start = a.last + 1 := hmore.1
          refine ⟨by omega, by omega, ?_⟩
          rw [hown' _ le_rfl hle, hb, Nat.add_sub_cancel, hown _ hlast le_rfl]
          exact hhead sp rfl
        · exact htail sp hsp

end Runs

/-- Settles O26: the span list is the runs of its owners, read clause by clause. -/
theorem spanListIsTheRunsOfOwners : Obligations.SpanListIsTheRunsOfOwners := by
  intro s y hc
  have h := runsOf_spanList s y
  exact ⟨h.head hc, h.getLast hc, h.isChain, fun sp hsp => (h.of_mem hsp).2.1,
    fun sp hsp => (h.of_mem hsp).2.2.2, fun c hc => h.spanOwner (Nat.zero_le c) hc⟩

/-! ### Where a span can begin (R99) -/

/-- The columns at which the rectangle of a slot begins, or ends, on a line. -/
def edgeColumns (t : SlotTable) : Finset Nat :=
  Finset.univ.image (fun i : Fin 32 => (slotAt t i).record.rect.left)
    ∪ Finset.univ.image fun i : Fin 32 => (slotAt t i).record.rect.left + (slotAt t i).record.rect.width

theorem edgeColumns_card (t : SlotTable) : (edgeColumns t).card ≤ 64 := by
  have h1 : (Finset.univ.image fun i : Fin 32 => (slotAt t i).record.rect.left).card ≤ 32 := Finset.card_image_le
  have h2 : (Finset.univ.image fun i : Fin 32 =>
    (slotAt t i).record.rect.left + (slotAt t i).record.rect.width).card ≤ 32 := Finset.card_image_le
  exact (Finset.card_union_le _ _).trans (by omega)

/-- Away from the edges of the regions a displayed column is contained where the column before it is. -/
theorem Entry.contains_pred {s : State} {k y : Nat} (h1 : 1 ≤ k) (hk : k < s.se.timing.displayedColumns)
    (hedge : k ∉ edgeColumns s.rgt.slots) (e : Entry) : e.contains s (k - 1) y = e.contains s k y := by
  have hcols {l w : Nat} (hl : k ≠ l) (hw : k ≠ l + w) :
      (decide (l ≤ k - 1) && decide (k - 1 < l + w)) = (decide (l ≤ k) && decide (k < l + w)) := by
    rw [← Bool.decide_and, ← Bool.decide_and]
    exact decide_eq_decide.2 (by omega)
  cases e with
  | region a =>
    simp only [edgeColumns, Finset.mem_union, Finset.mem_image, Finset.mem_univ, true_and, not_or, not_exists] at hedge
    have h := hcols (Ne.symm (hedge.1 a.slot)) (Ne.symm (hedge.2 a.slot))
    exact congrArg (fun b => b && decide ((slotAt s.rgt.slots a.slot).record.rect.top ≤ y)
      && decide (y < (slotAt s.rgt.slots a.slot).record.rect.top + (slotAt s.rgt.slots a.slot).record.rect.height)) h
  | fallback =>
    have h := hcols (l := 0) (w := s.se.timing.displayedColumns) (by omega) (by omega)
    exact congrArg (fun b => b && decide (0 ≤ y) && decide (y < 0 + s.se.timing.displayedLines)) h

/-- The owner changes at the edges of regions only. -/
theorem mem_edgeColumns_of_owner_ne {s : State} {k y : Nat} (h1 : 1 ≤ k) (hk : k < s.se.timing.displayedColumns)
    (hne : ownerOf s (effectiveOrder s) (k - 1) y ≠ ownerOf s (effectiveOrder s) k y) : k ∈ edgeColumns s.rgt.slots := by
  by_contra hedge
  refine hne ?_
  have hfun : (fun e : Entry => e.contains s (k - 1) y) = fun e => e.contains s k y :=
    funext fun e => Entry.contains_pred h1 hk hedge e
  rw [ownerOf, ownerOf, hfun]

/-- Settles O27: every span but the first begins at an edge of one of the 32 slots' rectangles, each of which has two. -/
theorem spanListHoldsAtMost65 : Obligations.SpanListHoldsAtMost65 := by
  intro s y _
  obtain ⟨hpairs, htail⟩ := (runsOf_spanList s y).starts
  have hnodup : ((spanList s y).tail.map Span.start).Nodup := by
    rw [List.map_tail]
    exact (hpairs.imp Nat.ne_of_lt).sublist (List.tail_sublist _)
  have hsub : ((spanList s y).tail.map Span.start).toFinset ⊆ edgeColumns s.rgt.slots := by
    intro k hk
    obtain ⟨sp, hsp, rfl⟩ := List.mem_map.1 (List.mem_toFinset.1 hk)
    obtain ⟨h1, hn, hne⟩ := htail sp hsp
    exact mem_edgeColumns_of_owner_ne h1 hn hne
  have hcard := Finset.card_le_card hsub
  rw [List.toFinset_card_of_nodup hnodup, List.length_map, List.length_tail] at hcard
  have := edgeColumns_card s.rgt.slots
  omega

end Sys2Proof.Machine
end

section
/-! PROOFS. The evaluation of a change set and the apply point: the laws of the working copy that every change which passes its checks keeps,
and the laws of the table after a commit and after a rejection (R55 to R59, R150). -/

namespace Sys2Proof.Machine
open Sys2Proof

-- One theorem after another, as in the tests: each thread of its own takes a stack and a heap of the checker's memory.
set_option Elab.async false

/-! ### The checks of a change (R56) -/

theorem targetFault_eq_none_iff {guard : Bool} {w : Working} {a : Handle} : targetFault guard w a = none ↔
    isCurrent w.slots a = true ∧ (slotAt w.slots a.slot).record.locked = false
      ∧ ¬(guard = true ∧ classOf w.slots a = .telltale) := by
  unfold targetFault
  split
  · simp_all
  · split
    · simp_all
    · split <;> simp_all

/-- A RESTACK that has passed has a ref of its target's class, if it has one (R32). -/
theorem sameBand_of_refFault_eq_none {w : Working} {a : Handle} {p : Position} (h : refFault w a p = none) :
    p.sameBand w.slots a := by
  cases p with
  | front | back => trivial
  | above ref | below ref =>
    simp only [refFault] at h
    split at h
    · cases h
    · split at h
      · cases h
      · next hc => exact not_not.1 hc

/-! ### The laws of the working copy -/

/-- The laws of a working copy on which the rest of a set's changes are still to be judged: those of a table, but for the captured
region, which stays as it was as long as the set neither retires it nor drops its touch part (R22). -/
structure WorkLaws (area : Option (Nat × Nat)) (c : Contact) (w : Working) (rest : List Change) : Prop where
  stack : StackMatches w.slots w.stack
  slots : ∀ i, SlotOk area c i (slotAt w.slots i)
  reserved : ∀ i, (slotAt w.slots i).state = .reserved → ∃ b ∈ rest, b.createsSlot i = true
  creates : ∀ b ∈ rest, b.isCreate = true → b.fitsTable w.slots
  ahead : rest.Pairwise fun a b => b.isCreate = true → a.target.slot ≠ b.target.slot
  groups : ∀ b ∈ rest, ∀ g, b.op = .amend g → g.inRange
  captured : ∀ a, c = .captured a → (slotAt w.slots a.slot).state ≠ .reserved
  held : ∀ a, c = .captured a → isLive w.slots a = true → a.slot ∉ w.dropped →
    (slotAt w.slots a.slot).record.touchMode = .accept ∧ ∃ q, (slotAt w.slots a.slot).touch = some q ∧ q.state ≠ .idle

section Step
variable {guard : Bool} {area : Option (Nat × Nat)} {c : Contact} {w : Working} {ch : Change} {rest : List Change}

/-- The target of a change that is no CREATE is not RESERVED: its CREATE, if it has one in the set, stands ahead of it. -/
theorem WorkLaws.target_not_reserved (h : WorkLaws area c w (ch :: rest)) (hch : ch.isCreate = false) :
    (slotAt w.slots ch.target.slot).state ≠ .reserved := by
  intro hr
  obtain ⟨b, hb, hslot⟩ := h.reserved _ hr
  have hcreate : b.isCreate = true ∧ b.target.slot = ch.target.slot := by
    unfold Change.createsSlot at hslot
    unfold Change.isCreate
    split at hslot
    · next d hop => simpa [hop] using hslot
    · cases hslot
  rcases List.mem_cons.1 hb with rfl | hb
  · simp [hch] at hcreate
  · exact (List.pairwise_cons.1 h.ahead).1 b hb hcreate.1 hcreate.2.symm

/-- A current target of a change that is no CREATE is LIVE. -/
theorem WorkLaws.target_live (h : WorkLaws area c w (ch :: rest)) (hch : ch.isCreate = false)
    (hcur : isCurrent w.slots ch.target = true) : isLive w.slots ch.target = true := by
  obtain ⟨hg, hfree⟩ := isCurrent_iff.1 hcur
  refine isLive_iff.2 ⟨hg, ?_⟩
  have hres := h.target_not_reserved hch
  cases hs : (slotAt w.slots ch.target.slot).state
  · exact absurd hs hfree
  · exact absurd hs hres
  · rfl

/-- The laws of the rest of the set, where the change just carried out leaves every other slot and no reservation of its own. -/
theorem WorkLaws.rest_reserved {w' : Working} (h : WorkLaws area c w (ch :: rest))
    (hothers : ∀ i, i ≠ ch.target.slot → slotAt w'.slots i = slotAt w.slots i)
    (hres : (slotAt w'.slots ch.target.slot).state ≠ .reserved) :
    (∀ i, (slotAt w'.slots i).state = .reserved → ∃ b ∈ rest, b.createsSlot i = true)
      ∧ ∀ b ∈ rest, b.isCreate = true → b.fitsTable w'.slots := by
  refine ⟨fun i hi => ?_, fun b hb hcreate => ?_⟩
  · have hne : i ≠ ch.target.slot := fun e => hres (e ▸ hi)
    rw [hothers i hne] at hi
    obtain ⟨b, hb, hslot⟩ := h.reserved i hi
    rcases List.mem_cons.1 hb with rfl | hb
    · refine absurd ?_ hne
      unfold Change.createsSlot at hslot
      split at hslot
      · exact (eq_of_beq hslot).symm
      · cases hslot
    · exact ⟨b, hb, hslot⟩
  · have hne := (List.pairwise_cons.1 h.ahead).1 b hb hcreate
    exact Change.fitsTable_of_slot_eq (hothers _ hne.symm) (h.creates b (List.mem_cons_of_mem _ hb) hcreate)

/-- A change that replaces its target's slot by a lawful one that is not RESERVED keeps the laws of the working copy. -/
theorem WorkLaws.replace {w' : Working} {x : Slot} (h : WorkLaws area c w (ch :: rest))
    (hslots : w'.slots = putSlot w.slots ch.target.slot x) (hx : SlotOk area c ch.target.slot x) (hres : x.state ≠ .reserved)
    (hstack : StackMatches w'.slots w'.stack) (hdrop : ∀ i ∈ w.dropped, i ∈ w'.dropped)
    (hheld : ∀ a, c = .captured a → a.slot = ch.target.slot → a.slot ∉ w'.dropped → x.state = .live → x.gen = a.gen →
      x.record.touchMode = .accept ∧ ∃ q, x.touch = some q ∧ q.state ≠ .idle) : WorkLaws area c w' rest := by
  have hothers (i : Fin 32) (hi : i ≠ ch.target.slot) : slotAt w'.slots i = slotAt w.slots i := by
    rw [hslots]; exact slotAt_putSlot_of_ne hi
  have htarget : slotAt w'.slots ch.target.slot = x := by rw [hslots]; exact slotAt_putSlot_self _ _ _
  obtain ⟨hreserved, hcreates⟩ := h.rest_reserved hothers (by rwa [htarget])
  refine
    { stack := hstack
      slots := fun i => ?_
      reserved := hreserved
      creates := hcreates
      ahead := (List.pairwise_cons.1 h.ahead).2
      groups := fun b hb => h.groups b (List.mem_cons_of_mem _ hb)
      captured := fun a ha => ?_
      held := fun a ha hlive hd => ?_ }
  · by_cases hi : i = ch.target.slot
    · rw [hi, htarget]; exact hx
    · rw [hothers i hi]; exact h.slots i
  · by_cases hi : a.slot = ch.target.slot
    · rw [hi, htarget]; exact hres
    · rw [hothers _ hi]; exact h.captured a ha
  · obtain ⟨hg, hl⟩ := isLive_iff.1 hlive
    by_cases hi : a.slot = ch.target.slot
    · rw [hi, htarget] at hg hl ⊢
      exact hheld a ha hi hd hl hg
    · rw [hothers _ hi] at hg hl ⊢
      exact h.held a ha (isLive_iff.2 ⟨hg, hl⟩) fun hm => hd (hdrop _ hm)

theorem WorkLaws.create {index : Nat} {a : Handle} {d : RegionRecord} (h : WorkLaws area c w (⟨index, a, .create d⟩ :: rest))
    (hf : changeFault guard area w ⟨index, a, .create d⟩ = none) :
    WorkLaws area c (carryOut w ⟨index, a, .create d⟩) rest := by
  have hslot : slotAt w.slots a.slot = ⟨.reserved, a.gen, d, none⟩ :=
    h.creates ⟨index, a, .create d⟩ List.mem_cons_self rfl
  have hfits : recordFits area d = true := by
    by_contra hn
    simp [changeFault, hn] at hf
  have hx : SlotOk area c a.slot ⟨.live, a.gen, { d with locked := false }, newTouch d.touchMode⟩ :=
    slotOk_created (hslot ▸ h.slots a.slot) hfits
  refine h.replace (x := ⟨.live, a.gen, { d with locked := false }, newTouch d.touchMode⟩) ?_ hx (by simp) ?_
    (fun _ hi => hi) fun b hb hslot' => ?_
  · simp only [carryOut, hslot]
  · simp only [carryOut, hslot]
    exact h.stack.create (x := ⟨.live, a.gen, { d with locked := false }, newTouch d.touchMode⟩) (by simp [hslot]) rfl rfl
  · refine absurd ?_ (h.captured b hb)
    rw [hslot', hslot]

theorem WorkLaws.amend {index : Nat} {a : Handle} {g : Group} (h : WorkLaws area c w (⟨index, a, .amend g⟩ :: rest))
    (hf : changeFault guard area w ⟨index, a, .amend g⟩ = none) :
    WorkLaws area c (carryOut w ⟨index, a, .amend g⟩) rest := by
  obtain ⟨htarget, hjudged⟩ := Option.or_eq_none_iff.1 hf
  obtain ⟨hcur, -, -⟩ := targetFault_eq_none_iff.1 htarget
  obtain ⟨-, hlive⟩ := isLive_iff.1 (h.target_live rfl hcur)
  have hx : SlotOk area c a.slot (amendSlot g (slotAt w.slots a.slot)) := by
    refine (h.slots a.slot).amend hlive (h.groups _ List.mem_cons_self g rfl) fun hj => ?_
    by_contra hn
    simp [hj, hn] at hjudged
  refine h.replace (x := amendSlot g (slotAt w.slots a.slot)) rfl hx (by simp [hlive]) ?_ (fun i hi => ?_)
    fun b hb hslot hdrop _ hgen => ?_
  · exact h.stack.replaceSlot (by simp) fun _ => ⟨by simp, by simp [amendRecord_cls]⟩
  · simp only [carryOut]
    split
    · exact List.mem_cons_of_mem _ hi
    · exact hi
  · have hslot : b.slot = a.slot := hslot
    simp only [carryOut] at hdrop
    rw [amendSlot_gen] at hgen
    have hkept : b.slot ∉ w.dropped ∧ amendDrops g (slotAt w.slots a.slot) = false := by
      split at hdrop
      · simp [hslot] at hdrop
      · next hn => exact ⟨hdrop, by simpa using hn⟩
    obtain ⟨hmode, q, hq, hn⟩ := h.held b hb (isLive_iff.2 (hslot ▸ ⟨hgen, hlive⟩)) hkept.1
    rw [hslot] at hmode hq
    rcases amendSlot_touch g (slotAt w.slots a.slot) with ⟨ht, hm⟩ | ⟨-, hd⟩
    · exact ⟨by rw [amendSlot_record, hm, hmode], q, by rw [ht, hq], hn⟩
    · have := hd (by simp [hq])
      rw [hkept.2] at this
      cases this

theorem WorkLaws.retire {index : Nat} {a : Handle} (h : WorkLaws area c w (⟨index, a, .retire⟩ :: rest))
    (hf : changeFault guard area w ⟨index, a, .retire⟩ = none) :
    WorkLaws area c (carryOut w ⟨index, a, .retire⟩) rest := by
  obtain ⟨hcur, -, -⟩ := targetFault_eq_none_iff.1 hf
  have hlive := h.target_live rfl hcur
  refine h.replace (x := (slotAt w.slots a.slot).freed) rfl (slotOk_freed _ _ _ _) (by simp) ?_ (fun i hi => ?_)
    fun b _ _ _ hs => by simp at hs
  · exact h.stack.retireOne hlive (by simp)
  · simp only [carryOut]
    split
    · exact List.mem_cons_of_mem _ hi
    · exact hi

theorem WorkLaws.restack {index : Nat} {a : Handle} {p : Position} (h : WorkLaws area c w (⟨index, a, .restack p⟩ :: rest))
    (hf : changeFault guard area w ⟨index, a, .restack p⟩ = none) :
    WorkLaws area c (carryOut w ⟨index, a, .restack p⟩) rest := by
  obtain ⟨htarget, href⟩ := Option.or_eq_none_iff.1 hf
  obtain ⟨hcur, -, -⟩ := targetFault_eq_none_iff.1 htarget
  obtain ⟨hreserved, hcreates⟩ := h.rest_reserved (w' := carryOut w ⟨index, a, .restack p⟩) (fun _ _ => rfl)
    (h.target_not_reserved rfl)
  exact
    { stack := h.stack.restack w.free (h.target_live rfl hcur) (sameBand_of_refFault_eq_none href)
      slots := h.slots
      reserved := hreserved
      creates := hcreates
      ahead := (List.pairwise_cons.1 h.ahead).2
      groups := fun b hb => h.groups b (List.mem_cons_of_mem _ hb)
      captured := h.captured
      held := h.held }

theorem WorkLaws.lock {index : Nat} {a : Handle} (h : WorkLaws area c w (⟨index, a, .lock⟩ :: rest))
    (hf : changeFault guard area w ⟨index, a, .lock⟩ = none) :
    WorkLaws area c (carryOut w ⟨index, a, .lock⟩) rest := by
  have hcur : isCurrent w.slots a = true := by
    by_contra hn
    simp [changeFault, hn] at hf
  obtain ⟨-, hlive⟩ := isLive_iff.1 (h.target_live rfl hcur)
  refine h.replace (x := { slotAt w.slots a.slot with record := { (slotAt w.slots a.slot).record with locked := true } }) rfl
    ((h.slots a.slot).lock hlive) (by simp [hlive]) ?_ (fun _ hi => hi) fun b hb hslot hdrop _ hgen => ?_
  · exact h.stack.replaceSlot Iff.rfl fun _ => ⟨rfl, rfl⟩
  · have hslot : b.slot = a.slot := hslot
    have hkept := h.held b hb (isLive_iff.2 (hslot ▸ ⟨hgen, hlive⟩)) hdrop
    rwa [hslot] at hkept

/-- A change that has passed its checks keeps the laws of the working copy (R57). -/
theorem WorkLaws.carryOut (h : WorkLaws area c w (ch :: rest)) (hf : changeFault guard area w ch = none) :
    WorkLaws area c (carryOut w ch) rest := by
  obtain ⟨index, a, op⟩ := ch
  cases op with
  | create d => exact h.create hf
  | amend g => exact h.amend hf
  | retire => exact h.retire hf
  | restack p => exact h.restack hf
  | lock => exact h.lock hf

end Step

/-- An evaluation that passes keeps the laws of the working copy (R55). -/
theorem WorkLaws.evaluate {guard : Bool} {area : Option (Nat × Nat)} {c : Contact} {changes : List Change} {w w' : Working}
    (h : WorkLaws area c w changes) (hw : evaluate guard area w changes = .passed w') : WorkLaws area c w' [] := by
  induction changes generalizing w with
  | nil => cases hw; exact h
  | cons ch rest ih =>
    rw [evaluate_cons] at hw
    split at hw
    · cases hw
    · next hf => exact ih (h.carryOut hf) hw

/-- The working copy at the start of an evaluation is the applied table (R55). -/
theorem TableLaws.workLaws {s : State} (h : TableLaws s.rgt.slots s.rgt.stack s.csu.changes s.pu.contact s.se.area) :
    WorkLaws s.se.area s.pu.contact s.working s.csu.changes where
  stack := h.stack
  slots := h.slots
  reserved := fun i hi => h.list.reserved_iff.1 hi
  creates := fun b hb _ => h.list.fits hb
  ahead := by
    obtain ⟨-, -, -, -, hahead⟩ := h.list
    exact hahead
  groups := h.groups
  captured := fun a ha hr => by
    have hlive := (isLive_iff.1 (h.held a ha).1).2
    rw [show slotAt s.working.slots a.slot = slotAt s.rgt.slots a.slot from rfl] at hr
    simp [hlive] at hr
  held := fun a ha _ _ => (h.held a ha).2.2

/-! ### The commit notice (R22, R150) -/

/-- With no cause for a cancellation the captured region is held in the committed table. -/
theorem WorkLaws.heldOk {area : Option (Nat × Nat)} {w : Working} {a : Handle} (h : WorkLaws area (.captured a) w [])
    (hn : noticeCause w.slots w.dropped a = none) : HeldOk w.slots (.captured a) := by
  intro b hb
  injection hb with hb
  subst hb
  unfold noticeCause at hn
  split at hn
  · cases hn
  · next hcur =>
    split at hn
    · cases hn
    · next hv =>
      split at hn
      · cases hn
      · next hd =>
        obtain ⟨hg, hfree⟩ := isCurrent_iff.1 (by simpa using hcur)
        have hlive : isLive w.slots a = true := by
          refine isLive_iff.2 ⟨hg, ?_⟩
          cases hs : (slotAt w.slots a.slot).state
          · exact absurd hs hfree
          · exact absurd hs (h.captured a rfl)
          · rfl
        exact ⟨hlive, by simpa using hv, h.held a rfl hlive (by simpa using hd)⟩

theorem noticeCause_contactAfter {t : SlotTable} {dropped : List (Fin 32)} {a : Handle} {cause : CancelCause}
    (h : noticeCause t dropped a = some cause) : cause.contactAfter = .unclaimed := by
  unfold noticeCause at h
  split at h
  · injection h with h; subst h; rfl
  · split at h
    · injection h with h; subst h; rfl
    · split at h
      · injection h with h; subst h; rfl
      · cases h

/-- The table that a finished working copy makes is lawful when the captured region is. -/
theorem WorkLaws.tableLaws {area : Option (Nat × Nat)} {c : Contact} {w : Working} (h : WorkLaws area c w [])
    (hheld : HeldOk w.slots c) : TableLaws w.slots w.stack [] c area where
  stack := h.stack
  slots := h.slots
  list := listLaw_nil fun i hi => by simpa using h.reserved i hi
  groups := by simp
  held := hheld

/-- The commit notice brings the contact into line with the committed table (R150). -/
theorem takeNotice_laws {w : Working} {s : State} (hslots : s.rgt.slots = w.slots) (hstack : s.rgt.stack = w.stack)
    (h : WorkLaws s.se.area s.pu.contact w []) (hpu : PuLaw s.pu) :
    TableLaws (takeNotice w.dropped s).rgt.slots (takeNotice w.dropped s).rgt.stack [] (takeNotice w.dropped s).pu.contact s.se.area
      ∧ PuLaw (takeNotice w.dropped s).pu := by
  cases hc : s.pu.contact with
  | up | unclaimed =>
    have heq : takeNotice w.dropped s = s := by rw [takeNotice, hc]
    rw [heq, hslots, hstack]
    exact ⟨h.tableLaws (heldOk_of_not_captured (by simp [hc])), hpu⟩
  | captured a =>
    cases hn : noticeCause s.rgt.slots w.dropped a with
    | none =>
      have heq : takeNotice w.dropped s = s := by simp only [takeNotice, hc, hn]
      rw [heq, hslots, hstack]
      refine ⟨h.tableLaws ?_, hpu⟩
      rw [hc] at h ⊢
      exact h.heldOk (hslots ▸ hn)
    | some cause =>
      have heq : takeNotice w.dropped s = cancelCapture cause s := by simp only [takeNotice, hc, hn]
      have hafter := noticeCause_contactAfter hn
      rw [heq, cancelCapture_of_captured hc]
      refine ⟨?_, ?_⟩
      · simp only [State.setPu_rgt, State.setSlots_rgt, State.setPu_pu, hafter, hslots, hstack]
        rw [hc] at h
        exact
          { stack := h.stack.of_sameRegions (sameRegions_mapTouch _ _ _)
            slots := fun i => by
              obtain ⟨f, hf⟩ := retouches_mapTouch w.slots a.slot (·.cancelled cause.leavesNews) i
              have hpart (q : TouchPart) (hq : (slotAt (mapTouch w.slots a.slot (·.cancelled cause.leavesNews)) i).touch = some q) :
                  PartOk .unclaimed ⟨i, (slotAt w.slots i).gen⟩ q := by
                rcases touch_mapTouch_eq_some hq with ⟨-, p, hp, rfl⟩ | ⟨hi, hq⟩
                · exact ((h.slots i).parts p hp).cancelled _
                · refine ((h.slots i).parts q hq).of_not_captured fun e => hi ?_
                  injection e with e
                  rw [e]
              rw [hf] at hpart ⊢
              exact (h.slots i).retouch f hpart
            list := listLaw_nil fun i hi => by
              rw [slotAt_mapTouch_state] at hi
              simpa using h.reserved i hi
            groups := by simp
            held := heldOk_of_not_captured (by simp) }
      · obtain ⟨-, hsilence, hlow, hhigh, henable⟩ := hpu
        refine ⟨fun hup => ?_, hsilence, hlow, hhigh, fun he => ?_⟩
        · rw [State.setPu_pu] at hup
          simp [hafter] at hup
        · have hup := henable he
          simp [hc] at hup

/-! ### Apply points -/

/-- An apply point keeps the laws of the table and of the contact (R58, R59). -/
theorem applySet_tableLaws {s : State} (h : TableLaws s.rgt.slots s.rgt.stack s.csu.changes s.pu.contact s.se.area)
    (hpu : PuLaw s.pu) :
    TableLaws (applySet s).rgt.slots (applySet s).rgt.stack (applySet s).csu.changes (applySet s).pu.contact (applySet s).se.area
      ∧ PuLaw (applySet s).pu := by
  have hwrites := applySet_writes s
  have hkept : (applySet s).csu.changes = [] ∧ (applySet s).se.area = s.se.area := by
    obtain ⟨t, stack, result, n, contact, silence, cause, heq⟩ := hwrites
    rw [heq]
    exact ⟨rfl, rfl⟩
  rw [hkept.1, hkept.2]
  rcases applySet_cases s with ⟨w, hw, heq⟩ | ⟨i, code, -, heq⟩ <;> rw [heq]
  · exact takeNotice_laws (w := w) (s := ((s.setRgt { s.rgt with slots := w.slots, stack := w.stack }).setCsu
      (s.csu.close .applied)).setFree (if w.tookFree then w.free + 1 else w.free)) rfl rfl (h.workLaws.evaluate hw) hpu
  · exact ⟨h.release, hpu⟩

end Sys2Proof.Machine
end

section
/-! PROOFS. The formats: the CRC-8, handles and codes (R4, R168, R185), and each field of a request's parameters as it is read (R18, R184,
R186), up to the 20-byte descriptor. -/

namespace Sys2Proof.Machine
open Sys2Proof

-- One theorem after another, as in the tests: each thread of its own takes a stack and a heap of the checker's memory.
set_option Elab.async false

/-! ### The CRC-8 (R168) -/

theorem crcBit_eq (reg : Byte) (bit : Bool) : crcBit reg bit = (reg <<< 1) ^^^ (if reg.msb = bit then 0 else 7) := by
  have hmsb : reg.msb = reg.getLsbD 7 := BitVec.msb_eq_getLsbD_last reg
  rw [crcBit, hmsb]
  cases reg.getLsbD 7 <;> cases bit <;> simp

/-- The register is linear in what it holds and what comes in. -/
theorem crcBit_xor (r r' : Byte) (b b' : Bool) : crcBit (r ^^^ r') (b ^^ b') = crcBit r b ^^^ crcBit r' b' := by
  have hif : (if (r ^^^ r').msb = (b ^^ b') then (0 : Byte) else 7)
      = (if r.msb = b then 0 else 7) ^^^ (if r'.msb = b' then 0 else 7) := by
    rw [BitVec.msb_xor]
    cases r.msb <;> cases r'.msb <;> cases b <;> cases b' <;> rfl
  rw [crcBit_eq, crcBit_eq, crcBit_eq, hif, BitVec.shiftLeft_xor_distrib]
  ac_rfl

theorem crcByte_xor (r r' b b' : Byte) : crcByte (r ^^^ r') (b ^^^ b') = crcByte r b ^^^ crcByte r' b' := by
  simp only [crcByte, List.foldl_cons, List.foldl_nil, BitVec.getLsbD_xor, crcBit_xor]

/-- A byte leaves the register at 0 exactly when it is what the register holds. -/
theorem crcByte_eq_zero_iff (reg b : Byte) : crcByte reg b = 0 ↔ b = reg := by
  have hsplit : crcByte reg b = crcByte 0 (b ^^^ reg) := by
    have h := crcByte_xor reg 0 reg (b ^^^ reg)
    have hzero : reg ^^^ (0 : Byte) = reg := BitVec.xor_zero
    have hzero' (x : Byte) : (0 : Byte) ^^^ x = x := BitVec.zero_xor
    rwa [hzero, BitVec.xor_comm b reg, ← BitVec.xor_assoc, BitVec.xor_self, BitVec.zero_xor, (crcByte_self reg).1,
      hzero', BitVec.xor_comm reg b] at h
  rw [hsplit]
  constructor
  · intro h
    exact BitVec.xor_eq_zero_iff.1 ((crcByte_self _).2 h)
  · rintro rfl
    rw [BitVec.xor_self]
    exact (crcByte_self 0).1

/-! ### Handles (R4) -/

theorem Handle.toByte_toNat (h : Handle) : h.toByte.toNat = h.gen.toNat * 32 + h.slot.val := by
  have hg := h.gen.isLt
  have hs := h.slot.isLt
  rw [Handle.toByte, BitVec.toNat_ofNat]
  omega

@[simp] theorem Handle.ofByte_toByte (h : Handle) : Handle.ofByte h.toByte = h := by
  have hg := h.gen.isLt
  have hs := h.slot.isLt
  have hslot : (h.gen.toNat * 32 + h.slot.val) % 32 = h.slot.val := by omega
  have hgen : (h.gen.toNat * 32 + h.slot.val) / 32 = h.gen.toNat := by omega
  obtain ⟨slot, gen⟩ := h
  simp only [Handle.ofByte, Handle.toByte_toNat, Handle.mk.injEq]
  exact ⟨Fin.ext hslot, BitVec.eq_of_toNat_eq (by rw [hgen]; simp)⟩

@[simp] theorem Handle.toByte_ofByte (b : Byte) : (Handle.ofByte b).toByte = b := by
  have hb := b.isLt
  refine BitVec.eq_of_toNat_eq ?_
  rw [Handle.toByte_toNat]
  simp only [Handle.ofByte, BitVec.toNat_ofNat]
  omega

theorem Handle.ofByte_inj {a b : Byte} : Handle.ofByte a = Handle.ofByte b ↔ a = b :=
  ⟨fun h => by simpa using congrArg Handle.toByte h, fun h => h ▸ rfl⟩

theorem isCurrent_iff_reserved_or_live {t : SlotTable} {h : Handle} : isCurrent t h = true ↔
    ((slotAt t h.slot).state = .reserved ∨ (slotAt t h.slot).state = .live) ∧ (slotAt t h.slot).gen = h.gen := by
  rw [isCurrent_iff, and_comm]
  cases (slotAt t h.slot).state <;> simp

/-- Settles O24: the CRC-8 is linear, a handle and its byte are one number in two parts, and the codes are a finite table. -/
theorem checkBytesHandlesAndCodes : Obligations.CheckBytesHandlesAndCodes := by
  have hcheck (message : List Byte) (check : Byte) : crc8 (message ++ [check]) = 0 ↔ check = crc8 message := by
    rw [crc8_append_singleton, crcByte_eq_zero_iff]
  refine ⟨hcheck, fun code bytes => ⟨(hcheck _ _).2 rfl, rfl⟩, rfl, crc8_append_singleton, fun _ _ => rfl,
    fun b => ⟨rfl, readByte_byteBits b⟩, fun _ => byteBits_readByte, crcBit_eq, fun h => ⟨h.toByte_toNat, h.ofByte_toByte⟩,
    Handle.toByte_ofByte, fun _ _ => isCurrent_iff_reserved_or_live, RequestKind.ofCode_code, fun _ => RequestKind.ofCode_eq_none,
    rfl, rfl, fun k => ?_, fun k => ?_, fun code => ?_⟩
  · cases k <;> rfl
  · cases k <;> rfl
  · cases code <;> rfl

/-! ### The fields of a payload (R18, R186) -/

theorem readRect_eq_some_iff {left top width height : Nat} {r : Rect} :
    readRect left top width height = some r ↔ r = ⟨left, top, width, height⟩ ∧ r.inRange := by
  unfold readRect
  split
  · next h => exact ⟨fun e => by injection e with e; subst e; exact ⟨rfl, h⟩, fun e => by rw [e.1]⟩
  · next h =>
    simp only [false_iff, not_and, reduceCtorEq]
    rintro rfl
    exact h

theorem readSource_eq_some_iff {kind : ContentKind} {base : Addr} {stride cellHeight scroll : Nat} {x : Source} :
    readSource kind base stride cellHeight scroll = some x ↔
      x = (if kind = .bitmap then ⟨.bitmap, base, stride, 1, 0⟩ else ⟨.text, base, stride, cellHeight, scroll⟩) ∧ x.inRange := by
  unfold readSource
  cases kind with
  | bitmap =>
    simp only [if_true]
    split
    · next h =>
      refine ⟨fun e => ?_, fun e => by rw [e.1]⟩
      injection e with e
      subst e
      exact ⟨rfl, h.1, h.2, by simp, by simp⟩
    · next h =>
      simp only [false_iff, not_and, reduceCtorEq]
      rintro rfl ⟨h1, h2, -⟩
      exact h ⟨h1, h2⟩
  | text =>
    simp only [if_false, reduceCtorEq]
    split
    · next h =>
      split
      · next h' =>
        refine ⟨fun e => ?_, fun e => by rw [e.1]⟩
        injection e with e
        subst e
        exact ⟨rfl, h.1, h.2, fun _ => h', by simp⟩
      · next h' =>
        simp only [false_iff, not_and, reduceCtorEq]
        rintro rfl ⟨-, -, h3, -⟩
        exact h' (h3 rfl)
    · next h =>
      simp only [false_iff, not_and, reduceCtorEq]
      rintro rfl ⟨h1, h2, -⟩
      exact h ⟨h1, h2⟩

/-- The code of a blink mode, in bits 1 to 0 of a cursor byte (R186). -/
def BlinkMode.code : BlinkMode → Nat
  | .steady => 0
  | .slow => 1
  | .fast => 2

/-- The code of a touch mode, in bits 1 to 0 of a mode byte (R186). -/
def TouchMode.code : TouchMode → Nat
  | .none => 0
  | .accept => 1
  | .block => 2

/-- The two low bits of a byte, as a number. -/
theorem toNat_mod_four (b : Byte) : b.toNat % 4 = 2 * (b.getLsbD 1).toNat + (b.getLsbD 0).toNat := by
  revert b
  decide +kernel

theorem readBlinkMode_eq_some_iff {b : Byte} {m : BlinkMode} : readBlinkMode b = some m ↔ b.toNat % 4 = m.code := by
  rw [toNat_mod_four, readBlinkMode]
  cases b.getLsbD 1 <;> cases b.getLsbD 0 <;> cases m <;> simp [BlinkMode.code]

theorem readTouchMode_eq_some_iff {b : Byte} {m : TouchMode} : readTouchMode b = some m ↔ b.toNat % 4 = m.code := by
  rw [toNat_mod_four, readTouchMode]
  cases b.getLsbD 1 <;> cases b.getLsbD 0 <;> cases m <;> simp [TouchMode.code]

theorem readCursor_eq_some_iff {b : Byte} {address : Addr} {first last : Nat} {c : Option CursorPart} :
    readCursor b address first last = some c ↔ (b.getLsbD 7 = false ∧ c = none)
      ∨ (b.getLsbD 7 = true ∧ ∃ m : BlinkMode, b.toNat % 4 = m.code ∧ c = some ⟨address, first, last, m⟩ ∧ cursorInRange c) := by
  unfold readCursor
  cases hb : b.getLsbD 7 with
  | false => simp [eq_comm]
  | true =>
    simp only [if_true, false_and, false_or, true_and, reduceCtorEq]
    cases hm : readBlinkMode b with
    | none =>
      simp only [false_iff, not_exists, reduceCtorEq]
      rintro m ⟨h, -⟩
      rw [readBlinkMode_eq_some_iff.2 h] at hm
      cases hm
    | some mode =>
      have hmode := readBlinkMode_eq_some_iff.1 hm
      dsimp only
      split
      · next h =>
        simp only [Option.some.injEq]
        refine ⟨fun e => ⟨mode, hmode, e.symm, fun x hx => ?_⟩, ?_⟩
        · rw [← e] at hx
          injection hx with hx
          subst hx
          exact h
        · rintro ⟨m, hm', rfl, -⟩
          have : some mode = some m := by rw [← hm, readBlinkMode_eq_some_iff.2 hm']
          injection this with this
          rw [this]
      · next h =>
        simp only [false_iff, not_exists, reduceCtorEq]
        rintro m ⟨-, rfl, hr⟩
        exact h (hr _ rfl)

/-! ### The descriptor -/

theorem readKind_eq (b : Byte) : readKind b = .bitmap ↔ b.getLsbD 6 = true := by
  rw [readKind]
  cases b.getLsbD 6 <;> simp

/-- A descriptor is read exactly when its fields, each at its place, are in their ranges (R18, R186). -/
theorem readDescriptor_eq_some_iff {p : List Byte} {d : RegionRecord} : readDescriptor p = some d ↔
    d.inRange ∧ d.locked = false ∧ d.cls = readClass (byteAt p 0)
      ∧ d.rect = ⟨num1 p 1, num2 p 2, num1 p 4, num2 p 5⟩
      ∧ d.source = (if readKind (byteAt p 0) = .bitmap then ⟨.bitmap, addr3 p 7, num2 p 10, 1, 0⟩
        else ⟨.text, addr3 p 7, num2 p 10, num1 p 12, num1 p 13⟩)
      ∧ d.look = readLook (byteAt p 0)
      ∧ ((byteAt p 14).getLsbD 7 = false → d.cursor = none)
      ∧ ((byteAt p 14).getLsbD 7 = true → ∃ m : BlinkMode, (byteAt p 14).toNat % 4 = m.code
        ∧ d.cursor = some ⟨addr3 p 15, num1 p 18, num1 p 19, m⟩)
      ∧ (byteAt p 0).toNat % 4 = d.touchMode.code := by
  have hread : readDescriptor p = some d ↔ ∃ rect source cursor touch,
      readRect (num1 p 1) (num2 p 2) (num1 p 4) (num2 p 5) = some rect
        ∧ readSource (readKind (byteAt p 0)) (addr3 p 7) (num2 p 10) (num1 p 12) (num1 p 13) = some source
        ∧ readCursor (byteAt p 14) (addr3 p 15) (num1 p 18) (num1 p 19) = some cursor
        ∧ readTouchMode (byteAt p 0) = some touch
        ∧ (rect.width ≤ source.stride ∧ (source.kind = .bitmap → cursor = none))
        ∧ d = ⟨readClass (byteAt p 0), false, rect, source, readLook (byteAt p 0), cursor, touch⟩ := by
    unfold readDescriptor
    dsimp only
    split
    · next rect source cursor touch h1 h2 h3 h4 =>
      rw [h1, h2, h3, h4]
      simp only [Option.some.injEq, exists_eq_left', exists_and_left]
      split
      · next h => exact ⟨fun e => ⟨h, (Option.some.inj e).symm⟩, fun e => congrArg some e.2.symm⟩
      · next h =>
        simp only [false_iff, reduceCtorEq]
        exact fun e => h e.1
    · next hnone =>
      simp only [false_iff, not_exists, reduceCtorEq]
      rintro rect source cursor touch ⟨h1, h2, h3, h4, -⟩
      exact hnone rect source cursor touch h1 h2 h3 h4
  rw [hread]
  constructor
  · rintro ⟨rect, source, cursor, touch, h1, h2, h3, h4, ⟨hw, hb⟩, rfl⟩
    obtain ⟨hrect, hr⟩ := readRect_eq_some_iff.1 h1
    obtain ⟨hsource, hs⟩ := readSource_eq_some_iff.1 h2
    have hc := readCursor_eq_some_iff.1 h3
    refine ⟨⟨hr, hs, ?_, hw, hb⟩, rfl, rfl, hrect, hsource, rfl, fun h7 => ?_, fun h7 => ?_, readTouchMode_eq_some_iff.1 h4⟩
    · rcases hc with ⟨-, rfl⟩ | ⟨-, m, -, -, hrange⟩
      · exact fun x hx => nomatch hx
      · exact hrange
    · rcases hc with ⟨-, hnone⟩ | ⟨hset, -⟩
      · exact hnone
      · rw [h7] at hset
        cases hset
    · simp only [h7, true_and, reduceCtorEq, false_and, false_or] at hc
      obtain ⟨m, hm, hcur, -⟩ := hc
      exact ⟨m, hm, hcur⟩
  · rintro ⟨⟨hr, hs, hcr, hw, hb⟩, hl, hcls, hrect, hsource, hlook, h7f, h7t, htouch⟩
    refine ⟨d.rect, d.source, d.cursor, d.touchMode, readRect_eq_some_iff.2 ⟨hrect, hr⟩, readSource_eq_some_iff.2 ⟨hsource, hs⟩,
      readCursor_eq_some_iff.2 ?_, readTouchMode_eq_some_iff.2 htouch, ⟨hw, hb⟩, ?_⟩
    · cases h7 : (byteAt p 14).getLsbD 7 with
      | false => exact .inl ⟨rfl, h7f h7⟩
      | true =>
        obtain ⟨m, hm, hcur⟩ := h7t h7
        exact .inr ⟨rfl, m, hm, hcur, hcr⟩
    · rw [← hcls, ← hlook, ← hl]

theorem readDescriptor_inRange {p : List Byte} {d : RegionRecord} (h : readDescriptor p = some d) : d.inRange ∧ d.locked = false :=
  let h' := readDescriptor_eq_some_iff.1 h
  ⟨h'.1, h'.2.1⟩

/-! ### The bytes of a descriptor -/

/-- The bits of a byte that is written bit by bit. -/
theorem ofBits_getLsbD : ∀ a b c d e f g h : Bool,
    (ofBits [a, b, c, d, e, f, g, h]).getLsbD 7 = a ∧ (ofBits [a, b, c, d, e, f, g, h]).getLsbD 6 = b
      ∧ (ofBits [a, b, c, d, e, f, g, h]).getLsbD 5 = c ∧ (ofBits [a, b, c, d, e, f, g, h]).getLsbD 4 = d
      ∧ (ofBits [a, b, c, d, e, f, g, h]).getLsbD 3 = e ∧ (ofBits [a, b, c, d, e, f, g, h]).getLsbD 2 = f
      ∧ (ofBits [a, b, c, d, e, f, g, h]).getLsbD 1 = g ∧ (ofBits [a, b, c, d, e, f, g, h]).getLsbD 0 = h := by
  decide +kernel

/-- The mode byte of a record, bit by bit (R186). -/
theorem modeByte_bits (r : RegionRecord) :
    (modeByte r).getLsbD 7 = decide (r.cls = .telltale) ∧ (modeByte r).getLsbD 6 = decide (r.source.kind = .bitmap)
      ∧ (modeByte r).getLsbD 5 = r.look.visible ∧ (modeByte r).getLsbD 4 = r.look.reverse
      ∧ (modeByte r).getLsbD 3 = r.look.blinkEnable ∧ (modeByte r).getLsbD 2 = false
      ∧ (modeByte r).toNat % 4 = r.touchMode.code := by
  have hcls : (r.cls == .telltale) = decide (r.cls = .telltale) := by cases r.cls <;> rfl
  have hkind : (r.source.kind == .bitmap) = decide (r.source.kind = .bitmap) := by cases r.source.kind <;> rfl
  obtain ⟨x, y, hxy, hcode⟩ : ∃ x y, touchModeBits r.touchMode = [x, y] ∧ r.touchMode.code = 2 * x.toNat + y.toNat := by
    cases r.touchMode <;> exact ⟨_, _, rfl, rfl⟩
  obtain ⟨h7, h6, h5, h4, h3, h2, h1, h0⟩ := ofBits_getLsbD (r.cls == .telltale) (r.source.kind == .bitmap) r.look.visible
    r.look.reverse r.look.blinkEnable false x y
  rw [toNat_mod_four, modeByte, hxy, hcode]
  simp only [List.cons_append, List.nil_append]
  rw [h7, h6, h5, h4, h3, h2, h1, h0, hcls, hkind]
  exact ⟨rfl, rfl, rfl, rfl, rfl, rfl, rfl⟩

theorem putAddr_eq (a : Addr) : putAddr a = [a.extractLsb' 16 8, a.extractLsb' 8 8, a.extractLsb' 0 8] := by
  have hfield (n : Nat) : a.extractLsb' n 8 = BitVec.ofNat 8 (a.toNat / 2 ^ n) := by
    rw [← Nat.shiftRight_eq_div_pow]
    rfl
  rw [hfield, hfield, hfield, putAddr]
  simp only [Nat.reducePow, Nat.div_one]

/-- A number field is read back from its bytes (R184). -/
theorem toNat_put1 {n : Nat} (h : n < 256) : (BitVec.ofNat 8 n).toNat = n := by
  rw [BitVec.toNat_ofNat]
  exact Nat.mod_eq_of_lt h

theorem toNat_put2 {n : Nat} (h : n < 65536) : (BitVec.ofNat 8 (n / 256)).toNat * 256 + (BitVec.ofNat 8 n).toNat = n := by
  simp only [BitVec.toNat_ofNat]
  omega

theorem ofNat_putAddr (a : Addr) : BitVec.ofNat 24 ((BitVec.ofNat 8 (a.toNat / 65536)).toNat * 65536
    + (BitVec.ofNat 8 (a.toNat / 256)).toNat * 256 + (BitVec.ofNat 8 a.toNat).toNat) = a := by
  have ha := a.isLt
  refine BitVec.eq_of_toNat_eq ?_
  simp only [BitVec.toNat_ofNat]
  omega

/-- The cursor's bytes read back as the cursor part, behind the fourteen bytes of the other fields. -/
theorem descriptorBytes_cursor {r : RegionRecord} (hr : cursorInRange r.cursor) :
    ((byteAt (descriptorBytes r) 14).getLsbD 7 = false → r.cursor = none)
      ∧ ((byteAt (descriptorBytes r) 14).getLsbD 7 = true → ∃ m : BlinkMode, (byteAt (descriptorBytes r) 14).toNat % 4 = m.code
        ∧ r.cursor = some ⟨addr3 (descriptorBytes r) 15, num1 (descriptorBytes r) 18, num1 (descriptorBytes r) 19, m⟩) := by
  obtain ⟨cls, locked, rect, source, look, cursor, touch⟩ := r
  cases cursor with
  | none => exact ⟨fun _ => rfl, fun h => absurd (show (0 : Byte).getLsbD 7 = true from h) (by decide)⟩
  | some x =>
    obtain ⟨address, first, last, mode⟩ := x
    have hlast : first ≤ last ∧ last ≤ 31 := hr _ rfl
    refine ⟨fun h => ?_, fun _ => ⟨mode, ?_, ?_⟩⟩
    · have h' : (ofBits ([true, false, false, false, false, false] ++ blinkModeBits mode)).getLsbD 7 = false := h
      cases mode <;> exact absurd h' (by decide)
    · show (ofBits ([true, false, false, false, false, false] ++ blinkModeBits mode)).toNat % 4 = mode.code
      cases mode <;> decide
    · show some _ = some (⟨BitVec.ofNat 24 ((BitVec.ofNat 8 (address.toNat / 65536)).toNat * 65536
        + (BitVec.ofNat 8 (address.toNat / 256)).toNat * 256 + (BitVec.ofNat 8 address.toNat).toNat),
        (BitVec.ofNat 8 first).toNat, (BitVec.ofNat 8 last).toNat, mode⟩ : CursorPart)
      rw [ofNat_putAddr, toNat_put1 (by omega), toNat_put1 (by omega)]

/-- A record that is not locked, in its ranges, reads back from its descriptor (R186). -/
theorem readDescriptor_descriptorBytes {r : RegionRecord} (hr : r.inRange) (hl : r.locked = false) :
    readDescriptor (descriptorBytes r) = some r := by
  obtain ⟨⟨hleft, htop, hw1, hw, hh1, hh, -⟩, ⟨hs1, hs, htext, hbits⟩, hcur, -, -⟩ := id hr
  obtain ⟨b7, b6, b5, b4, b3, -, hmode⟩ := modeByte_bits r
  obtain ⟨hcursor, hcursor'⟩ := descriptorBytes_cursor hcur
  have hbyte0 : byteAt (descriptorBytes r) 0 = modeByte r := rfl
  rw [readDescriptor_eq_some_iff]
  refine ⟨hr, hl, ?cls, ?rect, ?source, ?look, hcursor, hcursor', by rw [hbyte0, hmode]⟩
  case cls =>
    rw [hbyte0, readClass, b7]
    cases r.cls <;> rfl
  case look => rw [hbyte0, readLook, b5, b4, b3]
  case rect =>
    show r.rect = ⟨(BitVec.ofNat 8 r.rect.left).toNat, (BitVec.ofNat 8 (r.rect.top / 256)).toNat * 256
      + (BitVec.ofNat 8 r.rect.top).toNat, (BitVec.ofNat 8 r.rect.width).toNat,
      (BitVec.ofNat 8 (r.rect.height / 256)).toNat * 256 + (BitVec.ofNat 8 r.rect.height).toNat⟩
    rw [toNat_put1 (by omega), toNat_put2 (by omega), toNat_put1 (by omega), toNat_put2 (by omega)]
  case source =>
    have haddr : addr3 (descriptorBytes r) 7 = r.source.base := ofNat_putAddr r.source.base
    have hstride : num2 (descriptorBytes r) 10 = r.source.stride := toNat_put2 (by omega)
    have hheight : num1 (descriptorBytes r) 12 = (BitVec.ofNat 8 r.source.cellHeight).toNat := rfl
    have hscroll : num1 (descriptorBytes r) 13 = (BitVec.ofNat 8 r.source.scroll).toNat := rfl
    rw [hbyte0, haddr, hstride, hheight, hscroll]
    cases hk : r.source.kind with
    | bitmap =>
      obtain ⟨hcell, hzero⟩ := hbits hk
      rw [if_pos ((readKind_eq _).2 (by rw [b6, hk]; rfl))]
      rw [← hk, ← hcell, ← hzero]
    | text =>
      obtain ⟨hcell1, hcell, hlt⟩ := htext hk
      rw [if_neg (fun e => by rw [readKind_eq, b6, hk] at e; exact absurd e (by decide)), ← hk, toNat_put1 (by omega),
        toNat_put1 (by omega)]

/-- Settles O25: reading is known field by field, a descriptor is twenty bytes written out, and each field reads back from its bytes. -/
theorem descriptorReadsBack : Obligations.DescriptorReadsBack := by
  refine ⟨fun r hr hl => ⟨?length, readDescriptor_descriptorBytes hr hl⟩, fun p d => ?read, fun r => ?layout⟩
  case length =>
    obtain ⟨cls, locked, rect, source, look, cursor, touch⟩ := r
    cases cursor <;> rfl
  case read =>
    simp only [readDescriptor_eq_some_iff, readKind_eq]
    constructor
    · rintro ⟨hr, hl, hcls, hrect, hsource, hlook, h7, h7', ht⟩
      refine ⟨hr, hl, hcls, hrect, hsource, hlook, h7, fun h => ?_, ?_⟩
      · obtain ⟨m, hm, hc⟩ := h7' h
        exact ⟨m, by cases m <;> exact hm, hc⟩
      · generalize d.touchMode = m at ht ⊢
        cases m <;> exact ht
    · rintro ⟨hr, hl, hcls, hrect, hsource, hlook, h7, h7', ht⟩
      refine ⟨hr, hl, hcls, hrect, hsource, hlook, h7, fun h => ?_, ?_⟩
      · obtain ⟨m, hm, hc⟩ := h7' h
        exact ⟨m, by cases m <;> exact hm, hc⟩
      · generalize d.touchMode = m at ht ⊢
        cases m <;> exact ht
  case layout =>
    obtain ⟨b7, b6, b5, b4, b3, b2, hmode⟩ := modeByte_bits r
    refine ⟨modeByte r, ⟨b7, b6, b5, b4, b3, b2, ?_⟩, ?_⟩
    · rw [hmode]
      cases r.touchMode <;> rfl
    · have haddr := putAddr_eq r.source.base
      obtain ⟨cls, locked, rect, source, look, cursor, touch⟩ := r
      dsimp only at haddr ⊢
      rw [← haddr]
      cases cursor with
      | none => rfl
      | some x =>
        obtain ⟨address, first, last, mode⟩ := x
        dsimp only
        rw [← putAddr_eq]
        cases mode <;> rfl

/-! ### The payloads of AMEND and RESTACK -/

/-- An AMEND's payload is in its ranges (R18). -/
theorem readGroup_inRange {p : List Byte} {g : Group} (h : readGroup p = some g) : g.inRange := by
  unfold readGroup at h
  split at h
  · obtain ⟨r, hr, rfl⟩ := Option.map_eq_some_iff.1 h
    exact (readRect_eq_some_iff.1 hr).2
  · obtain ⟨x, hx, rfl⟩ := Option.map_eq_some_iff.1 h
    exact (readSource_eq_some_iff.1 hx).2
  · split at h
    · next hle => injection h with h; subst h; exact hle
    · cases h
  · injection h with h; subst h; trivial
  · obtain ⟨c, hc, rfl⟩ := Option.map_eq_some_iff.1 h
    rcases readCursor_eq_some_iff.1 hc with ⟨-, rfl⟩ | ⟨-, m, -, -, hr⟩
    · exact fun x hx => nomatch hx
    · exact hr
  · obtain ⟨m, -, rfl⟩ := Option.map_eq_some_iff.1 h
    trivial
  · cases h

end Sys2Proof.Machine
end

section
/-! PROOFS. Every happening keeps the laws of the state, and so does every step: the eight statements of chapter-by-chapter laws. -/

namespace Sys2Proof.Machine
open Sys2Proof

-- One theorem after another, as in the tests: each thread of its own takes a stack and a heap of the checker's memory.
set_option Elab.async false

/-! ### The line in progress (R99, R119) -/

/-- The records of the regions in the stacking order are kept. -/
def KeepsShown (s u : State) : Prop :=
  u.rgt.stack = s.rgt.stack
    ∧ ∀ a ∈ s.rgt.stack, (slotAt u.rgt.slots a.slot).record = (slotAt s.rgt.slots a.slot).record

theorem KeepsShown.of_table_eq {s u : State} (hslots : u.rgt.slots = s.rgt.slots) (hstack : u.rgt.stack = s.rgt.stack) :
    KeepsShown s u :=
  ⟨hstack, fun a _ => by rw [hslots]⟩

/-- What a line is composed from is kept (R90, R101, R104): the shown records, the timing set and the flag. -/
theorem shown_of_keepsShown {s u : State} (h : KeepsShown s u) (hflag : u.se.fallbackEffective = s.se.fallbackEffective)
    {a : Handle} (ha : a ∈ s.rgt.stack) : shown u a = shown s a := by
  simp only [shown, isVisible, classOf, h.2 a ha, hflag]

theorem ownerOf_of_keepsShown {s u : State} (h : KeepsShown s u) (hflag : u.se.fallbackEffective = s.se.fallbackEffective)
    (htiming : u.se.timing = s.se.timing) (c y : Nat) :
    ownerOf u (effectiveOrder u) c y = ownerOf s (effectiveOrder s) c y := by
  have hsearch : u.rgt.stack.find? (shownAt u c y) = s.rgt.stack.find? (shownAt s c y) := by
    rw [h.1]
    refine List.find?_congr fun a ha => ?_
    simp only [shownAt, shown_of_keepsShown h hflag ha, Entry.contains, Entry.rect, h.2 a ha]
  have hcontains : Entry.fallback.contains u c y = Entry.fallback.contains s c y := by
    simp only [Entry.contains, Entry.rect, htiming]
  have hless : regionlessOwner u c y = regionlessOwner s c y := by rw [regionlessOwner, regionlessOwner, hflag, hcontains]
  rw [ownerOf_effectiveOrder, ownerOf_effectiveOrder, hsearch, hless]

theorem spanList_of_keepsShown {s u : State} (h : KeepsShown s u) (hflag : u.se.fallbackEffective = s.se.fallbackEffective)
    (htiming : u.se.timing = s.se.timing) (y : Nat) : spanList u y = spanList s y := by
  simp only [spanList, ownerOf_of_keepsShown h hflag htiming, htiming]

theorem cellOf_of_keepsShown {s u : State} (h : KeepsShown s u) (htiming : u.se.timing = s.se.timing) (c y : Nat)
    (pdata : BitVec 16) (adata : Byte) :
    cellOf u (ownerOf s (effectiveOrder s) c y) c y pdata adata = cellOf s (ownerOf s (effectiveOrder s) c y) c y pdata adata := by
  cases hown : ownerOf s (effectiveOrder s) c y with
  | region a =>
    have ha : a ∈ s.rgt.stack := List.mem_of_find?_eq_some (ownerOf_eq_region_iff.1 hown)
    simp only [cellOf, h.2 a ha]
  | background => rfl
  | fallback => simp only [cellOf, htiming]

/-- The laws of the line are kept where the place, LC, COU and what a line is composed from are. -/
theorem LineLaw.of_kept {s u : State} (hl : LineLaw s) (h : KeepsShown s u) (hplace : u.se.place = s.se.place)
    (htiming : u.se.timing = s.se.timing) (hflag : u.se.fallbackEffective = s.se.fallbackEffective) (hlc : u.lc = s.lc)
    (hcou : u.cou = s.cou) : LineLaw u := by
  obtain ⟨hin, hout, hnone⟩ := hl
  refine ⟨fun y hy => ?_, fun hn => ?_, by rwa [hcou]⟩
  · obtain ⟨hspans, hcolumn, hcell⟩ := hin y (hplace ▸ hy)
    rw [hlc, hcou, htiming, spanList_of_keepsShown h hflag htiming]
    refine ⟨hspans, hcolumn, fun x hx => ?_⟩
    obtain ⟨hshifted, c, pdata, adata, hc, hx'⟩ := hcell x hx
    refine ⟨?_, c, pdata, adata, hc, ?_⟩
    · rw [State.cellGroups_length] at hshifted ⊢
      rwa [htiming]
    · rw [ownerOf_of_keepsShown h hflag htiming, cellOf_of_keepsShown h htiming]
      exact hx'
  · rw [hlc, hcou]
    exact hout fun y => hplace ▸ hn y

/-- Outside a displayed line LC and COU hold nothing. -/
theorem lineLaw_of_outside {s : State} (hplace : ∀ y, s.se.place ≠ .inLine y) (hlc : s.lc = ⟨[], 0⟩) (hcou : s.cou = ⟨none, 0⟩) :
    LineLaw s :=
  ⟨fun y hy => absurd hy (hplace y), fun _ => ⟨hlc, hcou⟩, fun _ => by rw [hcou]⟩

theorem LineLaw.empty {s : State} (h : LineLaw s) (hplace : ∀ y, s.se.place ≠ .inLine y) : s.lc = ⟨[], 0⟩ ∧ s.cou = ⟨none, 0⟩ :=
  h.2.1 hplace

theorem SameRegions.keepsShown {s u : State} (h : SameRegions s.rgt.slots u.rgt.slots) (hstack : u.rgt.stack = s.rgt.stack) :
    KeepsShown s u := by
  refine ⟨hstack, fun a _ => ?_⟩
  obtain ⟨q, hq⟩ := h a.slot
  rw [hq]

/-! ### The laws under the shared operations -/

/-- NOTE and the queue are no part of the laws. -/
theorem State.Laws.judgeNote {s : State} (h : s.Laws) : s.judgeNote.Laws :=
  { h with line := h.line.of_kept (.of_table_eq rfl rfl) rfl rfl rfl rfl rfl }

theorem State.Laws.setPending {s : State} (h : s.Laws) (q : List Instr) : (s.setPending q).Laws :=
  { h with line := h.line.of_kept (.of_table_eq rfl rfl) rfl rfl rfl rfl rfl }

/-- A change at the host port's pins keeps every law but those of the port. -/
theorem State.Laws.setPort {s : State} (h : s.Laws) {x : Hp} {sdo : Option (List Bool)} (hport : PortLaw x)
    (hsdo : SdoLaw ((s.setHp x).setPins { s.pins with sdo := sdo })) :
    ((s.setHp x).setPins { s.pins with sdo := sdo }).Laws :=
  { h with
    port := hport
    sdo := hsdo
    line := h.line.of_kept (.of_table_eq rfl rfl) rfl rfl rfl rfl rfl }

/-- A change of PU's contact record and of touch parts keeps every law, when it keeps those of the table and of the contact. -/
theorem State.Laws.repoint {s u : State} (h : s.Laws) (hu : Repoints s u)
    (hu' : TableLaws u.rgt.slots u.rgt.stack u.csu.changes u.pu.contact u.se.area ∧ PuLaw u.pu) : u.Laws := by
  obtain ⟨t, c, n, l, ht, rfl⟩ := hu
  exact
    { h with
      table := hu'.1
      pu := hu'.2
      line := h.line.of_kept (SameRegions.keepsShown ht rfl) rfl rfl rfl rfl rfl }

/-- A change of SE's record that keeps the place, the timing set and the flag. -/
theorem State.Laws.setSe {s : State} (h : s.Laws) {e : Se} (hscan : ScanLaw e) (hwaiting : s.csu.setState = .pending → e.scan ≠ .stopped)
    (hplace : e.place = s.se.place) (htiming : e.timing = s.se.timing) (hvalid : e.timingValid = s.se.timingValid)
    (hflag : e.fallbackEffective = s.se.fallbackEffective) : (s.setSe e).Laws :=
  { h with
    table := by
      have harea : (s.setSe e).se.area = s.se.area := by simp only [State.setSe_se, Se.area, hvalid, htiming]
      rw [harea]
      exact h.table
    timing := by
      intro hv
      rw [State.setSe_se, htiming]
      exact h.timing (hvalid ▸ hv)
    waiting := hwaiting
    scan := hscan
    line := h.line.of_kept (.of_table_eq rfl rfl) hplace htiming hflag rfl rfl }

/-! ### PU -/

/-- PU's record after a change that keeps the settings. -/
theorem PuLaw.contact {p p' : Pu} (h : PuLaw p) (htimeout : p'.timeout = p.timeout) (hup : p'.contact = .up → p'.silence = 0)
    (hsilence : p'.silence < 15) (henable : p'.enable = false → p'.contact = .up) : PuLaw p' := by
  obtain ⟨-, -, hlow, hhigh, -⟩ := h
  exact ⟨hup, hsilence, htimeout ▸ hlow, htimeout ▸ hhigh, henable⟩

theorem PuLaw.enabled {p : Pu} (h : PuLaw p) (hc : p.contact ≠ .up) : p.enable ≠ false := by
  obtain ⟨-, -, -, -, hup⟩ := h
  exact fun he => hc (hup he)

section Pointer
variable {s : State}

/-- PU's tick, by the contact state (R146, R148). -/
theorem takeTick_tableLaws (h : s.Laws) :
    TableLaws (takeTick s).rgt.slots (takeTick s).rgt.stack (takeTick s).csu.changes (takeTick s).pu.contact (takeTick s).se.area
      ∧ PuLaw (takeTick s).pu := by
  obtain ⟨-, hsilence, hlow, hhigh, -⟩ := id h.pu
  have htable := h.table
  rcases hc : s.pu.contact with _ | a | _ <;> rw [hc] at htable
  · rw [takeTick_of_up hc]
    exact ⟨hc ▸ htable, h.pu⟩
  · have henabled := h.pu.enabled (by simp [hc])
    rw [takeTick_of_captured hc]
    split_ifs
    · exact ⟨htable.giveUp (fun q b hq => hq.cancelled true) (by simp), h.pu.contact rfl (fun _ => rfl) (by simp) fun _ => rfl⟩
    · exact ⟨htable.giveUp (fun q b hq => hq.cancelled true) (by simp),
        h.pu.contact rfl (by simp) (by simp; omega) fun he => absurd he henabled⟩
    · exact ⟨hc ▸ htable, h.pu.contact rfl (fun hu => by simp [hc] at hu) (by simp; omega) fun he => absurd he henabled⟩
  · have henabled := h.pu.enabled (by simp [hc])
    rw [takeTick_of_unclaimed hc]
    split_ifs
    · exact ⟨htable.of_contact (by simp) (by simp), h.pu.contact rfl (fun _ => rfl) (by simp) fun _ => rfl⟩
    · exact ⟨hc ▸ htable, h.pu.contact rfl (fun hu => by simp [hc] at hu) (by simp; omega) fun he => absurd he henabled⟩

theorem takeTick_laws (h : s.Laws) : (takeTick s).Laws := by
  obtain ⟨hstop, hrun, hstopping, hvalid, hwithin, -, hflag⟩ := id h.scan
  have hlaws := takeTick_tableLaws h
  obtain ⟨u, ⟨t, c, n, l, ht, rfl⟩, heq⟩ := takeTick_repoints s
  rw [heq] at hlaws ⊢
  exact
    { h with
      table := hlaws.1
      pu := hlaws.2
      scan := ⟨fun e => ⟨(hstop e).1, (hstop e).2.1, rfl⟩, hrun, hstopping, hvalid, hwithin, by simp, hflag⟩
      line := h.line.of_kept (SameRegions.keepsShown ht rfl) rfl rfl rfl rfl rfl }

/-- A point inside the displayed area lies in the ranges of a touch part (R80, R136, R142). -/
theorem inRange_of_inArea (h : TimingLaw s.se) {p : Point} (hp : inArea s p = true) : p.inRange := by
  unfold inArea Se.area at hp
  by_cases hv : s.se.timingValid = true
  · obtain ⟨hrange, hrelate⟩ := h hv
    simp only [hv, if_true, Bool.and_eq_true, decide_eq_true_eq] at hp
    simp only [Timing.fieldsInRange, Timing.fieldsRelate, Bool.and_eq_true, decide_eq_true_eq] at hrange hrelate
    unfold Point.inRange
    omega
  · simp [hv] at hp

/-- A taken CONTACT, by the contact state (R143, R144). -/
theorem takeContact_tableLaws (h : s.Laws) {p : Point} (hp : p.inRange) (he : s.pu.enable = true) :
    TableLaws (takeContact p s).rgt.slots (takeContact p s).rgt.stack (takeContact p s).csu.changes (takeContact p s).pu.contact
        (takeContact p s).se.area
      ∧ PuLaw (takeContact p s).pu := by
  have htable := h.table
  have henabled : s.pu.enable ≠ false := by simp [he]
  unfold takeContact
  split
  · next hc =>
    rw [hc] at htable
    split
    · next a ha =>
      obtain ⟨hmem, hv, hm⟩ := mem_stack_of_hitTest ha
      exact ⟨htable.press (by simp) (htable.stack.2.1 a hmem) hv hm hp,
        h.pu.contact rfl (by simp) (by simp) fun hf => absurd hf henabled⟩
    · exact ⟨htable.of_contact (by simp) (by simp), h.pu.contact rfl (by simp) (by simp) fun hf => absurd hf henabled⟩
    · exact ⟨htable.of_contact (by simp) (by simp), h.pu.contact rfl (by simp) (by simp) fun hf => absurd hf henabled⟩
  · next a hc =>
    rw [hc] at htable
    have hown : handleOf s.rgt.slots a.slot = a := handleOf_eq (isLive_iff.1 (htable.held a rfl).1).1
    refine ⟨hc ▸ htable.keepCapture (fun q hq => ⟨hq.press, hp, hq.count, fun _ => by rw [hown]⟩) fun q => .inl ?_,
      h.pu.contact rfl (fun _ => rfl) (by simp) fun hf => absurd hf henabled⟩
    simp only [TouchPart.movedTo]
    split <;> simp
  · exact ⟨htable, h.pu.contact rfl (fun _ => rfl) (by simp) fun hf => absurd hf henabled⟩

/-- A taken LIFT, by the contact state (R145). -/
theorem takeLift_tableLaws (h : s.Laws) {p : Point} (hp : p.inRange) :
    TableLaws (takeLift p s).rgt.slots (takeLift p s).rgt.stack (takeLift p s).csu.changes (takeLift p s).pu.contact
        (takeLift p s).se.area
      ∧ PuLaw (takeLift p s).pu := by
  have htable := h.table
  unfold takeLift
  split
  · next hc => exact ⟨htable, h.pu.contact rfl (fun _ => rfl) (by simp) fun _ => hc⟩
  · next a hc =>
    rw [hc] at htable
    exact ⟨htable.giveUp (fun q b hq => hq.liftedAt hp _) (by simp), h.pu.contact rfl (fun _ => rfl) (by simp) fun _ => rfl⟩
  · next hc =>
    rw [hc] at htable
    exact ⟨htable.of_contact (by simp) (by simp), h.pu.contact rfl (fun _ => rfl) (by simp) fun _ => rfl⟩

/-- The receiver and the fault flags are no part of the laws but for the receiver's own. -/
theorem State.Laws.setReceiver (h : s.Laws) {r : Receiver} (hr : ReceiverLaw r) (link range : Bool) :
    (s.setPu { s.pu with receiver := r, linkFault := link, rangeFault := range }).Laws :=
  { h with
    receiver := hr
    line := h.line.of_kept (.of_table_eq rfl rfl) rfl rfl rfl rfl rfl }

/-- A report that is taken has a point inside the displayed area, and the pointer is enabled (R136, R137). -/
theorem judgeReport_taken {bytes : List Byte} {check : Byte} {k : ReportKind} {p : Point}
    (h : judgeReport s bytes check = .taken k p) : s.pu.enable = true ∧ inArea s p = true := by
  unfold judgeReport at h
  split at h
  · cases h
  · next hn =>
    split at h
    · cases h
    · split at h
      · cases h
      · split at h
        · next hin =>
          injection h with hk hp
          subst hp
          exact ⟨by simpa using fun he => hn (.inl he), hin⟩
        · cases h

theorem reportEffect_laws (h : s.Laws) (bytes : List Byte) (check : Byte) :
    (reportEffect (judgeReport s bytes check) s).Laws := by
  have hwaiting := h.setReceiver (r := .waiting) trivial
  cases hv : judgeReport s bytes check with
  | dropped => exact hwaiting s.pu.linkFault s.pu.rangeFault
  | link => exact hwaiting true s.pu.rangeFault
  | range => exact hwaiting s.pu.linkFault true
  | taken k p =>
    obtain ⟨he, harea⟩ := judgeReport_taken hv
    have hp := inRange_of_inArea h.timing harea
    have hs := hwaiting s.pu.linkFault s.pu.rangeFault
    cases k with
    | contact => exact hs.repoint (takeContact_repoints p _) (takeContact_tableLaws hs hp he)
    | lift => exact hs.repoint (takeLift_repoints p _) (takeLift_tableLaws hs hp)

/-- What the receiver keeps or begins anew holds one to four bytes (R135). -/
theorem receiverLaw_on {r r' : Receiver} {ch : PrxChar} (h : ReceiverLaw r)
    (hon : r.on ch = .kept r' ∨ r.on ch = .faulted r') : ReceiverLaw r' := by
  unfold Receiver.on at hon
  split at hon
  · split at hon
    · rcases hon with hon | hon <;> simp at hon
      subst hon
      simp [ReceiverLaw]
    · rcases hon with hon | hon <;> simp at hon
      subst hon
      trivial
    · rcases hon with hon | hon <;> simp at hon
      subst hon
      simp [ReceiverLaw]
    · split at hon
      · rcases hon with hon | hon <;> simp at hon
        subst hon
        simp [ReceiverLaw]
        omega
      · rcases hon with hon | hon <;> simp at hon
  · rcases hon with hon | hon <;> simp at hon
    subst hon
    trivial

theorem PointerEvent.laws {c : Instr} {u : State} (hu : PointerEvent s c u) (h : s.Laws) : u.Laws := by
  cases hu with
  | kept line ch r hr => exact h.setReceiver (receiverLaw_on h.receiver (.inl hr)) s.pu.linkFault s.pu.rangeFault
  | faulted line ch r hr => exact h.setReceiver (receiverLaw_on h.receiver (.inr hr)) _ s.pu.rangeFault
  | report c ch bytes hb => exact reportEffect_laws h bytes ch.data
  | tick c howed => exact takeTick_laws h

end Pointer

/-! ### The resets -/

section Resets
variable {s : State}

theorem PuLaw.reset {p : Pu} (h : PuLaw p) (cause : Option CancelCause) :
    PuLaw { p with contact := .up, silence := 0, linkFault := false, rangeFault := false, lastCause := cause } :=
  h.contact rfl (fun _ => rfl) (by simp) fun _ => rfl

theorem ScanLaw.halted {e : Se} (_h : ScanLaw e) : ScanLaw e.halted :=
  ⟨fun _ => ⟨rfl, rfl, rfl⟩, fun _ => rfl, by simp [Se.halted], by simp [Se.halted], trivial, by simp [Se.halted],
    by simp [Se.halted]⟩

/-- The port once the due soft reset has acted: no transaction is touched (R181). -/
theorem PortLaw.softReset {p : Hp} (h : PortLaw p) : PortLaw { p.clearFaults with softResetDue := false } := by
  obtain ⟨hidle, hheld, hframe, hreply, -, hbits⟩ := h
  exact ⟨hidle, hheld, hframe, hreply, by simp, hbits⟩

/-- The port at the assertion of RESET: HELD, with no bit in progress (R183). -/
theorem portLaw_resetAsserted (p : Hp) : PortLaw p.resetAsserted := by
  simp [PortLaw, Hp.resetAsserted]

/-- SDO is driven exactly while SELECT is low (R165). -/
theorem freshSdo_eq_none_iff (p : Hp) : p.freshSdo = none ↔ p.select = .released := by
  unfold Hp.freshSdo
  cases p.select <;> simp

/-- A soft reset keeps the laws (R181). -/
theorem softResetEffect_laws (h : s.Laws) : (softResetEffect s).Laws := by
  rw [softResetEffect_eq]
  have htable := h.table.softReset
  rw [← Csu.emptied_changes s.csu] at htable
  exact
    { table := htable
      pu := h.pu.reset _
      timing := h.timing
      waiting := fun hp => absurd ((Csu.emptied_setState s.csu).symm.trans hp) (by simp)
      scan := h.scan.halted
      line := lineLaw_of_outside (fun y hy => by cases hy) rfl rfl
      port := h.port.softReset
      sdo := h.sdo
      receiver := h.receiver }

theorem State.Laws.settled (h : s.Laws) : s.settled.Laws := by
  rcases s.settled_cases with ⟨-, heq⟩ | ⟨-, heq⟩ <;> rw [heq]
  · exact h
  · exact softResetEffect_laws h

/-- The assertion of RESET keeps the laws (R183). -/
theorem resetAsserted_laws (h : s.Laws) : (resetAsserted s).Laws := by
  rw [resetAsserted_eq, blocksReset_eq]
  have htable := h.table.release.clearTouch
  rw [← Csu.emptied_changes s.csu] at htable
  exact
    { table := htable
      pu := h.pu.reset _
      timing := h.timing
      waiting := fun hp => absurd ((Csu.emptied_setState s.csu).symm.trans hp) (by simp)
      scan := h.scan.halted
      line := lineLaw_of_outside (fun y hy => by cases hy) rfl rfl
      port := portLaw_resetAsserted s.hp
      sdo := ⟨freshSdo_eq_none_iff s.hp, fun hb => absurd rfl hb⟩
      receiver := h.receiver }

end Resets

end Sys2Proof.Machine
end

section
/-! PROOFS. What the owner of a request can do to the state, said once, and that it keeps the laws. -/

namespace Sys2Proof.Machine
open Sys2Proof

-- One theorem after another, as in the tests: each thread of its own takes a stack and a heap of the checker's memory.
set_option Elab.async false

/-! ### What an owner can do -/

/-- What the owner of a request can leave (R170): the state as it stands, or what the request that is taken does. -/
inductive OwnerEvent (s : State) : RequestKind → State → Prop
  | nothing (k : RequestKind) : OwnerEvent s k s
  | create (d : RegionRecord) (i : Fin 32) : s.csu.setState ≠ .pending → s.csu.changes.length < 16 → d.inRange →
      d.locked = false → (slotAt s.rgt.slots i).state = .free →
      OwnerEvent s .create ((s.setSlots (reserveSlot s.rgt.slots i d)).stage (handleOf s.rgt.slots i) (.create d))
  | stage (k : RequestKind) (target : Handle) (op : Operation) : s.csu.setState ≠ .pending → s.csu.changes.length < 16 →
      isCurrent s.rgt.slots target = true → (∀ d, op ≠ .create d) → (∀ g, op = .amend g → g.inRange) →
      OwnerEvent s k (s.stage target op)
  | publishWaits : s.csu.setState ≠ .pending → s.se.scan ≠ .stopped →
      OwnerEvent s .publish (s.setCsu { s.csu with seq := s.csu.seq + 1, setState := .pending })
  | publishApplies : s.csu.setState ≠ .pending → s.se.scan = .stopped →
      OwnerEvent s .publish (applySet (s.setCsu { s.csu with seq := s.csu.seq + 1 }))
  | withdraw : s.csu.setState = .pending → OwnerEvent s .withdraw (abandonSet .withdrawn s)
  | discard : s.csu.setState ≠ .pending →
      OwnerEvent s .discard
        ((s.setSlots (releaseReservations s.rgt.slots s.csu.changes)).setCsu { s.csu with changes := [] })
  | readOutcome : OwnerEvent s .readOutcome (s.setCsu { s.csu with unread := false })
  | guardOn : OwnerEvent s .guardOn (s.setRgt { s.rgt with guardEnable := true })
  | guardOff : s.rgt.guardLine ≠ .asserted → OwnerEvent s .guardOff (s.setRgt { s.rgt with guardEnable := false })
  | setTiming (t : Timing) : s.se.scan = .stopped → t.fieldsInRange = true → t.fieldsRelate = true →
      t.holdsRegions s.rgt.slots = true →
      OwnerEvent s .setTiming (s.setSe { s.se with timing := t, timingValid := true })
  | startScan : s.se.scan = .stopped → s.se.timingValid = true →
      OwnerEvent s .startScan (s.setSe { s.se with scan := .running, frame := 0, place := .outside, stop := none })
  | stopScan : s.se.scan = .running →
      OwnerEvent s .stopScan (s.setSe { s.se with scan := .stopping, stop := some s.se.place.stopPlace })
  | disable (timeout : Nat) : 1 ≤ timeout → timeout ≤ 15 →
      OwnerEvent s .pointerSettings
        ((disableContact s).setPu { (disableContact s).pu with enable := false, timeout := timeout })
  | pointerSettings (enable : Bool) (timeout : Nat) : 1 ≤ timeout → timeout ≤ 15 →
      ¬(s.pu.enable = true ∧ enable = false) →
      OwnerEvent s .pointerSettings (s.setPu { s.pu with enable := enable, timeout := timeout })
  | readTouch (h : Handle) : OwnerEvent s .readTouch (s.setSlots (mapTouch s.rgt.slots h.slot (·.read)))
  | readStatus : OwnerEvent s .readStatus ((s.setHp s.hp.clearFaults).setPu { s.pu.clearFaults with lastCause := none })
  | setNoteMask (m : NoteMask) : OwnerEvent s .setNoteMask (s.setHp { s.hp with mask := m })

theorem createRequest_event (p : List Byte) (s : State) : OwnerEvent s .create (createRequest p s).state := by
  unfold createRequest
  split
  · exact .nothing _
  · next hlist =>
    obtain ⟨hopen, hlen⟩ := listFault_eq_none.1 hlist
    split
    · exact .nothing _
    · next d hd =>
      split
      · exact .nothing _
      · next i hi =>
        exact .create d i hopen hlen (readDescriptor_inRange hd).1 (readDescriptor_inRange hd).2 (lowestFree_eq_some.1 hi).1

theorem stageChange_event (k : RequestKind) (target : Handle) {payload : Option Operation} (lockChecked : Bool) (s : State)
    (hc : ∀ d, payload ≠ some (.create d)) (hg : ∀ g, payload = some (.amend g) → g.inRange) :
    OwnerEvent s k (stageChange target payload lockChecked s).state := by
  unfold stageChange
  split
  · exact .nothing _
  · next hlist =>
    obtain ⟨hopen, hlen⟩ := listFault_eq_none.1 hlist
    split
    · exact .nothing _
    · next op =>
      split_ifs with hcurrent hlocked
      · exact .nothing _
      · exact .nothing _
      · exact .stage k target op hopen hlen (by simpa using hcurrent) (fun d hd => hc d (by rw [hd])) fun g h => hg g (by rw [h])

theorem publishRequest_event (p : List Byte) (s : State) : OwnerEvent s .publish (publishRequest p s).state := by
  unfold publishRequest
  split_ifs with hpending hscan
  · exact .nothing _
  · exact .publishApplies hpending hscan
  · exact .publishWaits hpending hscan

theorem setTimingRequest_event (p : List Byte) (s : State) : OwnerEvent s .setTiming (setTimingRequest p s).state := by
  unfold setTimingRequest
  dsimp only
  split
  · exact .nothing _
  · next hscan =>
    split
    · next hchecks =>
      simp only [Bool.and_eq_true] at hchecks
      obtain ⟨⟨hrange, hrelate⟩, hregions⟩ := hchecks
      exact .setTiming _ (not_not.1 hscan) hrange hrelate hregions
    · exact .nothing _

/-- The fields of a POINTER SETTINGS that is not refused (R138). -/
theorem readPointerSettings_eq_some_iff {p : List Byte} {enable : Bool} {timeout : Nat} :
    readPointerSettings p = some (enable, timeout) ↔
      flag1 (byteAt p 0) = some enable ∧ timeout = num1 p 1 ∧ 1 ≤ timeout ∧ timeout ≤ 15 := by
  unfold readPointerSettings
  cases flag1 (byteAt p 0) with
  | none => simp
  | some e =>
    by_cases ht : 1 ≤ num1 p 1 ∧ num1 p 1 ≤ 15
    · simp only [if_pos ht, Option.some.injEq, Prod.mk.injEq]
      constructor
      · rintro ⟨rfl, rfl⟩; exact ⟨rfl, rfl, ht⟩
      · rintro ⟨rfl, rfl, -⟩; exact ⟨rfl, rfl⟩
    · simp only [if_neg ht, reduceCtorEq, false_iff]
      rintro ⟨-, rfl, h⟩
      exact ht h

theorem pointerSettingsRequest_event (p : List Byte) (s : State) :
    OwnerEvent s .pointerSettings (pointerSettingsRequest p s).state := by
  unfold pointerSettingsRequest
  split
  · exact .nothing _
  · next enable timeout hread =>
    obtain ⟨-, -, hlow, hhigh⟩ := readPointerSettings_eq_some_iff.1 hread
    by_cases hoff : s.pu.enable = true ∧ enable = false
    · rw [if_pos hoff, hoff.2]
      exact .disable timeout hlow hhigh
    · rw [if_neg hoff]
      exact .pointerSettings enable timeout hlow hhigh hoff

theorem readTouchRequest_event (p : List Byte) (s : State) : OwnerEvent s .readTouch (readTouchRequest p s).state := by
  unfold readTouchRequest
  dsimp only
  split
  · split
    · exact .readTouch _
    · exact .nothing _
  · exact .nothing _

/-- Everything the owner of a request can do. -/
theorem owner_event (k : RequestKind) (p : List Byte) (s : State) : OwnerEvent s k (k.owner p s).state := by
  cases k with
  | create => exact createRequest_event p s
  | amend =>
    refine stageChange_event _ _ _ s (fun d => by simp) fun g hg => ?_
    obtain ⟨g', hread, heq⟩ := Option.map_eq_some_iff.1 hg
    injection heq with heq
    exact heq ▸ readGroup_inRange hread
  | retire => exact stageChange_event _ _ _ s (by simp) (by simp)
  | restack => exact stageChange_event _ _ _ s (by simp) (by simp)
  | lock => exact stageChange_event _ _ _ s (by simp) (by simp)
  | publish => exact publishRequest_event p s
  | withdraw =>
    show OwnerEvent s .withdraw (withdrawRequest p s).state
    unfold withdrawRequest
    split
    · next hpending => exact .withdraw hpending
    · exact .nothing _
  | discard =>
    show OwnerEvent s .discard (discardRequest p s).state
    unfold discardRequest
    split
    · exact .nothing _
    · next hopen => exact .discard hopen
  | readOutcome => exact .readOutcome
  | readRegion =>
    show OwnerEvent s .readRegion (readRegionRequest p s).state
    unfold readRegionRequest
    dsimp only
    split <;> exact .nothing _
  | readStack => exact .nothing _
  | guardOn => exact .guardOn
  | guardOff =>
    show OwnerEvent s .guardOff (guardOffRequest p s).state
    unfold guardOffRequest
    split
    · exact .nothing _
    · next hline => exact .guardOff hline
  | setTiming => exact setTimingRequest_event p s
  | readTiming => exact .nothing _
  | startScan =>
    show OwnerEvent s .startScan (startScanRequest p s).state
    unfold startScanRequest
    split
    · next h => exact .startScan h.1 h.2
    · exact .nothing _
  | stopScan =>
    show OwnerEvent s .stopScan (stopScanRequest p s).state
    unfold stopScanRequest
    split
    · next h => exact .stopScan h
    · exact .nothing _
    · exact .nothing _
  | pointerSettings => exact pointerSettingsRequest_event p s
  | readTouch => exact readTouchRequest_event p s
  | probe =>
    show OwnerEvent s .probe (probeRequest p s).state
    unfold probeRequest
    dsimp only
    split <;> exact .nothing _
  | readStatus => exact .readStatus
  | setNoteMask =>
    show OwnerEvent s .setNoteMask (setNoteMaskRequest p s).state
    unfold setNoteMaskRequest
    split
    · exact .nothing _
    · exact .setNoteMask _
  | softReset => exact .nothing _

/-- No owner touches the transaction or the lines of the host port. -/
theorem OwnerEvent.port_kept {s u : State} {k : RequestKind} (hu : OwnerEvent s k u) :
    u.hp.trans = s.hp.trans ∧ u.hp.softResetDue = s.hp.softResetDue ∧ u.hp.select = s.hp.select
      ∧ u.hp.resetLine = s.hp.resetLine ∧ u.hp.bits = s.hp.bits := by
  cases hu with
  | publishApplies hopen hscan =>
    obtain ⟨t, stack, result, n, contact, silence, cause, heq⟩ := applySet_writes (s.setCsu { s.csu with seq := s.csu.seq + 1 })
    rw [heq]
    exact ⟨rfl, rfl, rfl, rfl, rfl⟩
  | disable timeout hlow hhigh =>
    obtain ⟨t, c, n, l, -, heq⟩ := disableContact_repoints s
    rw [heq]
    exact ⟨rfl, rfl, rfl, rfl, rfl⟩
  | _ => exact ⟨rfl, rfl, rfl, rfl, rfl⟩

/-! ### The owners keep the laws -/

section Laws
variable {s : State}

/-- CSU's record but for the list is no part of the laws, while a PENDING set is not left at a STOPPED scan. -/
theorem State.Laws.setCsu (h : s.Laws) {c : Csu} (hlist : c.changes = s.csu.changes)
    (hwaiting : c.setState = .pending → s.se.scan ≠ .stopped) : (s.setCsu c).Laws :=
  { h with
    table := by rw [State.setCsu_csu, hlist]; exact h.table
    waiting := hwaiting
    line := h.line.of_kept (.of_table_eq rfl rfl) rfl rfl rfl rfl rfl }

/-- The guard's setting and line are no part of the laws. -/
theorem State.Laws.setGuard (h : s.Laws) (enable : Bool) (line : LineLevel) :
    (s.setRgt { s.rgt with guardEnable := enable, guardLine := line }).Laws :=
  { h with line := h.line.of_kept (.of_table_eq rfl rfl) rfl rfl rfl rfl rfl }

/-- A change of SE's record, with the laws of the line seen to. -/
theorem State.Laws.moveScan (h : s.Laws) {e : Se} (hscan : ScanLaw e) (hwaiting : s.csu.setState = .pending → e.scan ≠ .stopped)
    (htiming : e.timing = s.se.timing) (hvalid : e.timingValid = s.se.timingValid) (hline : LineLaw (s.setSe e)) :
    (s.setSe e).Laws :=
  { h with
    table := by
      have harea : (s.setSe e).se.area = s.se.area := by simp only [State.setSe_se, Se.area, hvalid, htiming]
      rw [harea]
      exact h.table
    timing := by
      intro hv
      rw [State.setSe_se, htiming]
      exact h.timing (hvalid ▸ hv)
    waiting := hwaiting
    scan := hscan
    line := hline }

/-- An apply point outside a displayed line keeps the laws; a set may be PENDING at it, with the scan STOPPED (R53, R92). -/
theorem applySet_laws (h : (s.setCsu { s.csu with setState := .opened }).Laws) (hplace : ∀ y, s.se.place ≠ .inLine y) :
    (applySet s).Laws := by
  have hempty := h.line.empty hplace
  have htable := applySet_tableLaws (s := s) h.table h.pu
  obtain ⟨t, stack, result, n, contact, silence, cause, heq⟩ := applySet_writes s
  rw [heq] at htable ⊢
  exact
    { table := htable.1
      pu := htable.2
      timing := h.timing
      waiting := fun hp => by cases hp
      scan := h.scan
      line := lineLaw_of_outside hplace hempty.1 hempty.2
      port := h.port
      sdo := h.sdo
      receiver := h.receiver }

theorem applyIfPending_laws (h : (s.setCsu { s.csu with setState := .opened }).Laws) (hplace : ∀ y, s.se.place ≠ .inLine y) :
    (applyIfPending s).Laws := by
  unfold applyIfPending
  split
  · exact applySet_laws h hplace
  · next hopen => exact h.setCsu (c := s.csu) rfl fun hp => absurd hp hopen

/-- The records that the displayed area of a new timing set must hold (R83). -/
theorem holdsRegions_iff {t : Timing} {slots : SlotTable} : t.holdsRegions slots = true ↔
    ∀ i : Fin 32, (slotAt slots i).state ≠ .free →
      (slotAt slots i).record.rect.inside t.displayedColumns t.displayedLines = true := by
  simp only [Timing.holdsRegions, List.all_eq_true, List.mem_finRange, forall_const, Bool.or_eq_true, beq_iff_eq]
  exact forall_congr' fun i => or_iff_not_imp_left

/-- A new timing set whose displayed area holds the regions keeps the laws (R83): the scan is STOPPED, so no line is composed. -/
theorem setTiming_laws (h : s.Laws) {t : Timing} (hscan : s.se.scan = .stopped) (hrange : t.fieldsInRange = true)
    (hrelate : t.fieldsRelate = true) (hregions : t.holdsRegions s.rgt.slots = true) :
    (s.setSe { s.se with timing := t, timingValid := true }).Laws := by
  have hplace : s.se.place = .outside := (h.scan.1 hscan).1
  have houtside : ∀ y, s.se.place ≠ .inLine y := by simp [hplace]
  have hempty := h.line.empty houtside
  obtain ⟨hstop, hrun, hstopping, -, -, howed, -⟩ := id h.scan
  exact
    { h with
      table :=
        { h.table with
          slots := fun i => (h.table.slots i).of_area fun hlive => by
            obtain ⟨-, hstride, hcursor, hscroll⟩ := recordFits_iff.1 ((h.table.slots i).fits hlive)
            have hin := holdsRegions_iff.1 hregions i (by simp [hlive])
            simp only [Rect.inside, Bool.and_eq_true, decide_eq_true_eq] at hin
            exact recordFits_iff.2 ⟨⟨_, _, rfl, hin⟩, hstride, hcursor, hscroll⟩ }
      timing := fun _ => ⟨hrange, hrelate⟩
      scan := ⟨hstop, hrun, hstopping, fun _ => rfl, by simp [hplace, ScanPlace.within], howed, fun _ => rfl⟩
      line := lineLaw_of_outside houtside hempty.1 hempty.2 }

/-- The stop point of a STOP SCAN lies ahead (R87). -/
theorem stopPlace_ahead (p : ScanPlace) : p.stopPlace.ahead p := by cases p <;> trivial

theorem OwnerEvent.laws {u : State} {k : RequestKind} (hu : OwnerEvent s k u) (h : s.Laws) : u.Laws := by
  cases hu with
  | nothing k => exact h
  | create d i hopen hlen hd hl hi =>
    exact
      { h with
        table := h.table.reserve hlen hi hd hl
        line := h.line.of_kept ⟨rfl, fun a ha => by
          have hne : a.slot ≠ i := fun e => by
            have := h.table.stack.live_of_mem ha
            simp [e, hi] at this
          exact congrArg Slot.record (slotAt_putSlot_of_ne hne)⟩ rfl rfl rfl rfl rfl }
  | stage k target op hopen hlen htarget hop hg =>
    exact
      { h with
        table := h.table.stage hlen htarget hop hg
        line := h.line.of_kept (.of_table_eq rfl rfl) rfl rfl rfl rfl rfl }
  | publishWaits hopen hscan => exact h.setCsu rfl fun _ => hscan
  | publishApplies hopen hscan =>
    refine applySet_laws (h.setCsu rfl (by simp)) fun y hy => ?_
    rw [State.setCsu_se, (h.scan.1 hscan).1] at hy
    cases hy
  | withdraw hpending =>
    exact
      { h with
        table := h.table.release
        waiting := fun hp => by cases hp
        line := h.line.of_kept ⟨rfl, fun a ha => by simp [abandonSet, h.table.stack.live_of_mem ha]⟩ rfl rfl rfl rfl rfl }
  | discard hopen =>
    exact
      { h with
        table := h.table.release
        line := h.line.of_kept ⟨rfl, fun a ha => by simp [h.table.stack.live_of_mem ha]⟩ rfl rfl rfl rfl rfl }
  | readOutcome => exact h.setCsu rfl h.waiting
  | guardOn => exact h.setGuard true s.rgt.guardLine
  | guardOff hline => exact h.setGuard false s.rgt.guardLine
  | setTiming t hscan hrange hrelate hregions => exact setTiming_laws h hscan hrange hrelate hregions
  | startScan hscan hvalid =>
    obtain ⟨hplace, -, howed⟩ := h.scan.1 hscan
    refine h.setSe ?_ (by simp) hplace.symm rfl rfl rfl
    exact ⟨by simp, fun _ => rfl, by simp, fun _ => hvalid, trivial, by simp [howed], fun _ => hvalid⟩
  | stopScan hscan =>
    obtain ⟨-, -, -, hvalid, hwithin, howed, hflag⟩ := id h.scan
    refine h.setSe ?_ (by simp) rfl rfl rfl rfl
    exact ⟨by simp, by simp, fun _ => ⟨_, rfl, stopPlace_ahead s.se.place⟩, fun _ => hvalid (by simp [hscan]), hwithin, howed, hflag⟩
  | disable timeout hlow hhigh =>
    obtain ⟨t, c, n, l, ht, heq⟩ := disableContact_repoints s
    have htable : TableLaws (disableContact s).rgt.slots s.rgt.stack s.csu.changes .up s.se.area := by
      rcases cancelCapture_cases .disabled s with ⟨hsame, hc⟩ | ⟨a, hc, hsame⟩
      · rw [disableContact, hsame]
        exact h.table.of_contact hc (by simp)
      · rw [disableContact, hsame]
        have htable := h.table
        rw [hc] at htable
        exact htable.giveUp (fun q b hq => hq.cancelled true) (by simp)
    have hup : (disableContact s).pu.contact = .up ∧ (disableContact s).pu.silence = 0 := ⟨rfl, rfl⟩
    rw [heq] at htable hup ⊢
    exact
      { h with
        table := by
          have hc : c = .up := hup.1
          subst hc
          exact htable
        pu := ⟨fun _ => hup.2, by show n < 15; have : n = 0 := hup.2; omega, hlow, hhigh, fun _ => hup.1⟩
        line := h.line.of_kept (SameRegions.keepsShown ht rfl) rfl rfl rfl rfl rfl }
  | pointerSettings enable timeout hlow hhigh hkeep =>
    obtain ⟨hzero, hsilence, -, -, henable⟩ := id h.pu
    exact
      { h with
        pu := ⟨hzero, hsilence, hlow, hhigh, fun he => by
          refine henable ?_
          rcases hs : s.pu.enable with _ | _
          · rfl
          · exact absurd ⟨hs, he⟩ hkeep⟩
        line := h.line.of_kept (.of_table_eq rfl rfl) rfl rfl rfl rfl rfl }
  | readTouch a =>
    exact
      { h with
        table := h.table.keepCapture (fun q hq => ⟨hq.press, hq.last, by simp [TouchPart.read], hq.held⟩) fun q => .inr rfl
        line := h.line.of_kept (SameRegions.keepsShown (sameRegions_mapTouch _ _ _) rfl) rfl rfl rfl rfl rfl }
  | readStatus => exact { h with line := h.line.of_kept (.of_table_eq rfl rfl) rfl rfl rfl rfl rfl }
  | setNoteMask m => exact { h with line := h.line.of_kept (.of_table_eq rfl rfl) rfl rfl rfl rfl rfl }

end Laws

end Sys2Proof.Machine
end

section
/-! PROOFS. Every happening keeps the laws of the state, and so does every step: the eight statements of the laws, and the state after
power-on. -/

namespace Sys2Proof.Machine
open Sys2Proof

-- One theorem after another, as in the tests: each thread of its own takes a stack and a heap of the checker's memory.
set_option Elab.async false

/-! ### The host port (R165 to R174) -/

/-- A byte more of a request keeps what HP holds of it true to its bytes (R167, R168). -/
theorem FrameLaw.take {f : Frame} (h : FrameLaw f) (hcheck : f.atCheckByte = false) (b : Byte) : FrameLaw (f.take b) := by
  rcases f with ⟨_ | kind, _ | n, params, crc⟩
  · obtain ⟨rfl, rfl⟩ : params = [] ∧ crc = 0 := h
    exact ⟨rfl, rfl⟩
  · exact (h : False).elim
  · obtain ⟨rfl, rfl⟩ : params = [] ∧ crc = crc8 [kind] := h
    exact ⟨Nat.zero_le _, (crc8_append_singleton [kind] b).symm⟩
  · obtain ⟨hle, rfl⟩ : params.length ≤ n.toNat ∧ crc = crc8 (kind :: n :: params) := h
    have hne : params.length ≠ n.toNat := by simpa [Frame.atCheckByte] using hcheck
    refine ⟨?_, (crc8_append_singleton (kind :: n :: params) b).symm⟩
    show (params ++ [b]).length ≤ n.toNat
    simp only [List.length_append, List.length_singleton]
    omega

/-- The port at the end of a byte, with SELECT low and RESET released: a transaction that is lawful, at the first bit of the next
byte. -/
theorem PortLaw.move {p : Hp} {t : TransState} {due : Bool} (hs : p.select = .asserted) (hr : p.resetLine = .released)
    (hidle : t ≠ .idle) (hframe : ∀ f, t = .receiving f → FrameLaw f)
    (hreply : ∀ reply sent soft, t = .replying reply sent soft → sent < reply.length)
    (hdue : due = true → t = .idle ∨ t = .draining ∨ t = .held) :
    PortLaw { p with trans := t, bits := [], softResetDue := due } :=
  ⟨by simp [hidle, hs], by simp [hr], hframe, hreply, hdue, by simp, fun _ => rfl⟩

/-- While a request is received or answered no soft reset is due (R180). -/
theorem PortLaw.not_due {p : Hp} (h : PortLaw p) (hidle : p.trans ≠ .idle) (hdrain : p.trans ≠ .draining)
    (hheld : p.trans ≠ .held) : p.softResetDue = false := by
  obtain ⟨-, -, -, -, hdue, -⟩ := h
  rcases hd : p.softResetDue with _ | _
  · rfl
  · rcases hdue hd with he | he | he
    · exact absurd he hidle
    · exact absurd he hdrain
    · exact absurd he hheld

/-- While SELECT is high or RESET is held no bit is in progress. -/
theorem PortLaw.bits_eq_nil {p : Hp} (h : PortLaw p) (hp : p.select = .released ∨ p.resetLine = .asserted) : p.bits = [] := by
  obtain ⟨-, -, -, -, -, -, hbits⟩ := h
  exact hbits hp

theorem PortLaw.frameLaw {p : Hp} {f : Frame} (h : PortLaw p) (hf : p.trans = .receiving f) : FrameLaw f := by
  obtain ⟨-, -, hframe, -⟩ := h
  exact hframe f hf

theorem encodeReply_length (code : ReplyCode) (bytes : List Byte) : (encodeReply code bytes).length = bytes.length + 3 := by
  simp [encodeReply]

section Port
variable {s : State}

/-- The end of a byte keeps the laws, with a lawful transaction after it. -/
theorem State.Laws.endByte (h : s.Laws) {t : TransState} (hs : s.hp.select = .asserted) (hport : PortLaw { s.hp with trans := t, bits := [] }) :
    (s.endByte t).Laws :=
  h.setPort hport ⟨by simp [hs], fun hb => absurd rfl hb⟩

/-- A reply begins (R167, R170). -/
theorem State.Laws.replyWith (h : s.Laws) (code : ReplyCode) (bytes : List Byte) (soft : Bool) (hs : s.hp.select = .asserted)
    (hr : s.hp.resetLine = .released) (hdue : s.hp.softResetDue = false) : (s.replyWith code bytes soft).Laws := by
  refine h.setPort (PortLaw.move hs hr (by simp) (by simp) (fun reply sent soft' he => ?_) (by simp [hdue])) ⟨by simp [hs], fun hb => absurd rfl hb⟩
  injection he with hreply hsent hsoft
  rw [← hreply, ← hsent, encodeReply_length]
  omega

theorem PortLaw.setFault {p : Hp} (h : PortLaw p) (e : FramingError) : PortLaw (p.setFault e) := by
  cases e <;> exact h

theorem State.Laws.setFault (h : s.Laws) (e : FramingError) : (s.setHp (s.hp.setFault e)).Laws :=
  { h with
    port := h.port.setFault e
    sdo := by cases e <;> exact h.sdo
    line := h.line.of_kept (.of_table_eq rfl rfl) rfl rfl rfl rfl rfl }

theorem portLaw_selectFall {p : Hp} (h : PortLaw p) (hd : p.softResetDue = false) : PortLaw { p with
    select := .asserted
    bits := []
    trans := if p.trans = .idle ∧ p.resetLine = .released then .receiving Frame.empty else p.trans } := by
  obtain ⟨hidle, hheld, hframe, hreply, -, -, -⟩ := h
  split
  · next hi => exact ⟨by simp, by simp [hi.2], fun f hf => by cases hf; exact ⟨rfl, rfl⟩, by simp, by simp [hd], by simp, fun _ => rfl⟩
  · next hi =>
    have hne : p.trans ≠ .idle := fun he => hi ⟨he, (hidle.1 he).2⟩
    exact ⟨by simp [hne], hheld, hframe, hreply, by simp [hd], by simp, fun _ => rfl⟩

theorem Hp.selectRisen_select (p : Hp) : p.selectRisen.select = .released ∧ p.selectRisen.bits = []
    ∧ p.selectRisen.resetLine = p.resetLine := by
  unfold Hp.selectRisen
  dsimp only
  split <;> exact ⟨rfl, rfl, rfl⟩

/-- At a rise the transaction is over, but while RESET is held (R173, R174, R182). -/
theorem Hp.selectRisen_trans {p : Hp} (h : PortLaw p) :
    p.selectRisen.trans = if p.resetLine = .asserted then .held else .idle := by
  obtain ⟨hidle, hheld, -⟩ := h
  unfold Hp.selectRisen
  dsimp only
  rcases hr : p.resetLine with _ | _
  · rw [hheld hr, if_pos rfl]
  · split
    · next ht => exact ht
    all_goals rfl

theorem portLaw_selectRisen {p : Hp} (h : PortLaw p) : PortLaw p.selectRisen := by
  obtain ⟨hsel, hbits, hreset⟩ := p.selectRisen_select
  have htrans := Hp.selectRisen_trans h
  unfold PortLaw
  rw [hsel, hbits, hreset, htrans]
  rcases p.resetLine with _ | _ <;> simp

theorem portLaw_resetReleased {p : Hp} (h : PortLaw p) (hr : p.resetLine = .asserted) : PortLaw { p with
    resetLine := .released
    trans := if p.select = .released then .idle else .held } := by
  obtain ⟨hidle, hheld, hframe, hreply, hdue, hlen, hbits⟩ := h
  rw [hbits (.inr hr)]
  rcases p.select with _ | _ <;> simp [PortLaw]

theorem PortEvent.laws {c : Instr} {u : State} (hu : PortEvent s c u) (h : s.Laws) (hd : s.hp.softResetDue = false) : u.Laws := by
  cases hu with
  | sdoLow c n hs hr =>
    have hbits : s.hp.bits = [] := h.port.bits_eq_nil (.inr hr)
    exact h.setPort h.port ⟨by simp [hs], fun hb => absurd hbits hb⟩
  | bitsHeld c sdi hs hr hn =>
    obtain ⟨hidle, hheld, hframe, hreply, hdue, -, -⟩ := id h.port
    exact h.setPort ⟨hidle, hheld, hframe, hreply, hdue, hn, by simp [hs, hr]⟩ ⟨by simp [hs], fun _ => rfl⟩
  | byteIgnored c b sdi hclk hi =>
    obtain ⟨hidle, hheld, hframe, hreply, hdue, -, -⟩ := id h.port
    exact h.endByte hclk.1 ⟨hidle, hheld, hframe, hreply, hdue, by simp, fun _ => rfl⟩
  | faulted c b sdi f e hclk hf he =>
    have hdue := h.port.not_due (by simp [hf]) (by simp [hf]) (by simp [hf])
    cases e <;> exact (h.setFault _).replyWith _ _ _ hclk.1 hclk.2.1 hdue
  | requestByte b sdi f hclk hf hcheck =>
    have hdue := h.port.not_due (by simp [hf]) (by simp [hf]) (by simp [hf])
    have hframe := (h.port.frameLaw hf).take hcheck b
    exact h.endByte hclk.1 (PortLaw.move hclk.1 hclk.2.1 (by simp) (by simp [hframe]) (by simp) (by simp [hdue]))
  | replyByte b reply sent soft hclk ht hn =>
    have hdue := h.port.not_due (by simp [ht]) (by simp [ht]) (by simp [ht])
    refine h.endByte hclk.1 (PortLaw.move hclk.1 hclk.2.1 (by simp) (by simp) (fun reply' sent' soft' he => ?_) (by simp [hdue]))
    injection he with hreply hsent hsoft
    rw [← hreply, ← hsent]
    exact hn
  | replyEnd b reply sent soft hclk ht hn =>
    exact h.setPort (PortLaw.move hclk.1 hclk.2.1 (by simp) (by simp) (by simp) (by simp)) ⟨by simp [hclk.1], fun hb => absurd rfl hb⟩
  | selectFell hs => exact h.setPort (portLaw_selectFall h.port hd) ⟨by simp, fun hb => absurd rfl hb⟩
  | selectRose hs =>
    obtain ⟨hsel, hbits, -⟩ := s.hp.selectRisen_select
    exact h.setPort (portLaw_selectRisen h.port) ⟨by simp [hsel], fun hb => absurd hbits hb⟩
  | resetReleased hr =>
    have hbits : s.hp.bits = [] := h.port.bits_eq_nil (.inr hr)
    exact h.setPort (portLaw_resetReleased h.port hr) ⟨h.sdo.1, fun hb => absurd hbits hb⟩

end Port

/-! ### The scan (R88 to R92, R104, R132) -/

section Scan
variable {s : State}

/-- The pins but for SDO, the column drivers and the model's counter are no part of the laws. -/
theorem State.Laws.setOutputs (h : s.Laws) {x : Pins} (hsdo : x.sdo = s.pins.sdo) (panel : Panel) (n : Nat) :
    (((s.setPins x).setPanel panel).setFree n).Laws :=
  { h with
    sdo := by
      obtain ⟨hdriven, hcarried⟩ := h.sdo
      exact ⟨(iff_of_eq (congrArg (· = none) hsdo)).trans hdriven, fun hb => hsdo.trans (hcarried hb)⟩
    line := h.line.of_kept (.of_table_eq rfl rfl) rfl rfl rfl rfl rfl }

theorem State.Laws.idlePins (h : s.Laws) (dots : List (BitVec 4)) (lsync fsync : Bool) : (s.idlePins dots lsync fsync).Laws :=
  h.setOutputs (x := (s.idlePins dots lsync fsync).pins) rfl s.panel (s.freeReads + 1)

/-- A scan has displayed lines (R80). -/
theorem State.Laws.displayedLines_pos (h : s.Laws) (hscan : s.se.scan ≠ .stopped) : 8 ≤ s.se.timing.displayedLines := by
  obtain ⟨-, -, -, hvalid, -⟩ := h.scan
  obtain ⟨hrange, -⟩ := h.timing (hvalid hscan)
  simp only [Timing.fieldsInRange, Bool.and_eq_true, decide_eq_true_eq] at hrange
  omega

/-- A frame start falls outside a displayed line. -/
theorem not_inLine_of_nextFrame {e : Se} {frame : BitVec 6} (hf : e.nextFrame = some frame) (y : Nat) : e.place ≠ .inLine y := by
  intro hy
  simp [Se.nextFrame, hy] at hf

/-- SE moves outside the displayed lines, where LC and COU hold nothing. -/
theorem LineLaw.moveOutside (h : LineLaw s) {e : Se} (hold : ∀ y, s.se.place ≠ .inLine y) (hnew : ∀ y, e.place ≠ .inLine y) :
    LineLaw (s.setSe e) := by
  obtain ⟨hlc, hcou⟩ := h.empty hold
  exact lineLaw_of_outside hnew hlc hcou

/-- SE's part of a frame start (R89). -/
theorem beginFrame_laws (h : s.Laws) {frame : BitVec 6} (hscan : s.se.scan = .running) (hf : s.se.nextFrame = some frame) :
    (s.beginFrame frame).Laws := by
  obtain ⟨-, hrun, -, hvalid, -⟩ := id h.scan
  have hlines := h.displayedLines_pos (by simp [hscan])
  refine State.Laws.idlePins (h.moveScan (e := { s.se with
      frame := frame
      fallbackEffective := s.se.fallbackLine == .asserted
      place := .before 0
      tickOwed := true }) ?_ (fun _ => by simp [hscan]) rfl rfl
    (h.line.moveOutside (not_inLine_of_nextFrame hf) (by simp))) _ _ _
  refine ⟨by simp [hscan], hrun, by simp [hscan], hvalid, ?_, fun _ => rfl, fun _ => hvalid (by simp [hscan])⟩
  show 0 < s.se.timing.displayedLines
  omega

theorem frameOpened_laws (h : s.Laws) {frame : BitVec 6} (hscan : s.se.scan = .running) (hf : s.se.nextFrame = some frame)
    (order : FrameOrder) : (frameOpened order frame s).Laws := by
  cases order with
  | csuFirst => exact beginFrame_laws h hscan hf
  | puFirst => exact takeTick_laws (beginFrame_laws h hscan hf)

theorem frameOpened_place (order : FrameOrder) (frame : BitVec 6) (s : State) :
    (frameOpened order frame s).se.place = .before 0 := by
  cases order with
  | csuFirst => rfl
  | puFirst =>
    obtain ⟨u, ⟨t, c, n, l, -, rfl⟩, heq⟩ := takeTick_repoints (s.beginFrame frame)
    rw [frameOpened, heq]
    rfl

/-- The scan ends at its stop point (R92); a set may still be PENDING, which CSU takes next (R53). -/
theorem scanEnded_laws (h : s.Laws) (hat : s.se.atStopPoint = true) :
    ((scanEnded s).setCsu { s.csu with setState := .opened }).Laws := by
  have hplace : ∀ y, s.se.place ≠ .inLine y := by
    intro y hy
    cases hstop : s.se.stop with
    | none => simp [Se.atStopPoint, hstop] at hat
    | some p => cases p <;> simp [Se.atStopPoint, hstop, hy] at hat
  obtain ⟨-, hcou⟩ := h.line.empty hplace
  have howed : s.se.tickOwed = false := by
    obtain ⟨-, -, -, -, -, howed, -⟩ := h.scan
    rcases ho : s.se.tickOwed with _ | _
    · rfl
    · cases hstop : s.se.stop with
      | none => simp [Se.atStopPoint, hstop] at hat
      | some p => cases p <;> simp [Se.atStopPoint, hstop, howed ho] at hat
  obtain ⟨-, -, -, hvalid, -, -, hflag⟩ := id h.scan
  have hopen : (s.setCsu { s.csu with setState := .opened }).Laws := h.setCsu rfl (by simp)
  have hended : ScanLaw { s.se with scan := .stopped, place := .outside, stop := none } :=
    ⟨fun _ => ⟨rfl, rfl, howed⟩, by simp, by simp, by simp, trivial, by simp [howed], hflag⟩
  have hmoved := hopen.moveScan hended (by simp) rfl rfl (hopen.line.moveOutside hplace (by simp))
  rw [scanEnded, ← hcou]
  exact hmoved.idlePins [] false false

/-- At a line start LC holds the line's span list, with no cell issued (R99). -/
theorem lineLaw_lineStart (h : LineLaw s) {y : Nat} (hplace : s.se.place = .before y) {panel : Panel} {pins : Pins} :
    LineLaw ((((s.setSe { s.se with place := .inLine y }).setLc ⟨spanList s y, 0⟩).setPanel panel).setPins pins) := by
  obtain ⟨-, hcou⟩ := h.empty (by simp [hplace])
  refine ⟨fun z hz => ?_, fun hn => absurd rfl (hn y), fun _ => by simp [hcou]⟩
  cases hz
  exact ⟨(spanList_of_keepsShown (.of_table_eq rfl rfl) rfl rfl y).symm, Nat.zero_le _, fun x hx => by simp [hcou] at hx⟩

/-- The cell issued next is the one that the line's owner has at its column (R104). -/
theorem nextCell_eq (h : LineLaw s) {y : Nat} (hplace : s.se.place = .inLine y)
    (hcol : s.lc.column < s.se.timing.displayedColumns) (data : CellData) :
    nextCell s y data = cellOf s (ownerOf s (effectiveOrder s) s.lc.column y) s.lc.column y data.pdata data.adata := by
  obtain ⟨hin, -⟩ := h
  obtain ⟨hspans, -⟩ := hin y hplace
  rw [nextCell, hspans, (runsOf_spanList s y).spanOwner (Nat.zero_le _) hcol]

/-- After a cell issue COU holds that cell while groups of it are left (R119). -/
theorem lineLaw_cellIssue (h : LineLaw s) {y : Nat} (hplace : s.se.place = .inLine y)
    (hcol : s.lc.column < s.se.timing.displayedColumns) (data : CellData) (n : Nat) {out : List (BitVec 4)} :
    LineLaw (((shiftOut out (issueCell (nextCell s y data) s)).setCou
      (couAfter s (nextCell s y data) n)).setLc { s.lc with column := s.lc.column + 1 }) := by
  have hnext := nextCell_eq h hplace hcol data
  obtain ⟨hin, -⟩ := h
  obtain ⟨hspans, -⟩ := hin y hplace
  refine ⟨fun z hz => ?_, fun hn => absurd hplace (hn y), fun hnone => ?_⟩
  · obtain rfl : y = z := by
      have hz : s.se.place = .inLine z := hz
      rw [hplace] at hz
      injection hz
    refine ⟨hspans.trans (spanList_of_keepsShown (.of_table_eq rfl rfl) rfl rfl y).symm, hcol, fun x hx => ?_⟩
    rcases couAfter_cases s (nextCell s y data) n with ⟨hn, hc⟩ | ⟨-, hc⟩
    · simp only [State.setLc_cou, State.setCou_cou, hc, Option.some.injEq] at hx ⊢
      subst hx
      refine ⟨by rw [State.cellGroups_length]; exact hn, s.lc.column, data.pdata, data.adata, rfl, ?_⟩
      rw [hnext]
      refine (cellOf_of_keepsShown (.of_table_eq rfl rfl) rfl _ _ _ _).symm.trans ?_
      rw [ownerOf_of_keepsShown (s := s) (.of_table_eq rfl rfl) rfl rfl]
      rfl
    · simp [hc] at hx
  · rcases couAfter_cases s (nextCell s y data) n with ⟨-, hc⟩ | ⟨-, hc⟩
    · simp [hc] at hnone
    · simp [hc]

theorem afterLine_ne_inLine (t : Timing) (y z : Nat) : t.afterLine y ≠ .inLine z := by
  unfold Timing.afterLine
  split <;> simp

theorem afterLine_within (t : Timing) (y : Nat) : (t.afterLine y).within t := by
  unfold Timing.afterLine
  split
  · assumption
  · exact Nat.zero_le _

/-- A stop point ahead of a line is ahead of the place after it (R87). -/
theorem ahead_afterLine {p : StopPlace} {t : Timing} {y : Nat} (h : p.ahead (.inLine y)) : p.ahead (t.afterLine y) := by
  unfold Timing.afterLine
  cases p with
  | lastLineEnd =>
    split
    · trivial
    · rfl
  | nextFrameStart => exact h.elim

theorem ScanEvent.laws {c : Instr} {u : State} (hu : ScanEvent s c u) (h : s.Laws) : u.Laws := by
  cases hu with
  | frameStart order frame hscan hf =>
    refine applyIfPending_laws ((frameOpened_laws h hscan hf order).setCsu rfl (by simp)) fun y => ?_
    rw [frameOpened_place]
    simp
  | retraceLine k hscan hplace hk hstop =>
    have hout : ∀ y, s.se.place ≠ .inLine y := by simp [hplace]
    obtain ⟨hstopped, hrun, hstopping, hvalid, -, howed, hflag⟩ := id h.scan
    refine State.Laws.idlePins (h.moveScan (e := { s.se with place := .retrace (k + 1) }) ?_ h.waiting rfl rfl
      (h.line.moveOutside hout (by simp))) _ _ _
    refine ⟨fun hs => absurd hs hscan, hrun, fun hs => ?_, hvalid, hk, fun ho => ?_, hflag⟩
    · obtain ⟨p, hp, hahead⟩ := hstopping hs
      refine ⟨p, hp, ?_⟩
      cases p with
      | lastLineEnd => exact absurd hp hstop
      | nextFrameStart => trivial
    · have := howed ho
      rw [hplace] at this
      cases this
  | stopPoint hscan hat =>
    refine applyIfPending_laws (scanEnded_laws h hat) (by simp [scanEnded, State.idlePins])
  | lineStart y hscan hplace howed =>
    obtain ⟨hstopped, hrun, hstopping, hvalid, hwithin, -, hflag⟩ := id h.scan
    obtain ⟨-, hcou⟩ := h.line.empty (by simp [hplace])
    rw [hplace] at hwithin hstopping
    exact
      { h with
        scan := ⟨fun hs => absurd hs hscan, hrun, fun hs => by
          obtain ⟨p, hp, hahead⟩ := hstopping hs
          refine ⟨p, hp, ?_⟩
          cases p with
          | lastLineEnd => trivial
          | nextFrameStart => exact hahead, hvalid, hwithin, fun ho => absurd ho (by simp [howed]), hflag⟩
        line := lineLaw_lineStart h.line hplace }
  | cellIssue y data n hscan hplace hcol => exact { h with line := lineLaw_cellIssue h.line hplace hcol data n }
  | lineEnd y hscan hplace hcol =>
    obtain ⟨hstopped, hrun, hstopping, hvalid, hwithin, howed, hflag⟩ := id h.scan
    rw [hplace] at hwithin hstopping howed
    refine State.Laws.idlePins (s := ((((s.setSe _).setLc _).setCou _).setPanel _)) ?_ _ _ _
    exact
      { h with
        scan := ⟨fun hs => absurd hs hscan, hrun, fun hs => by
          obtain ⟨p, hp, hahead⟩ := hstopping hs
          exact ⟨p, hp, ahead_afterLine hahead⟩, hvalid, afterLine_within s.se.timing y, fun ho => (by cases howed ho), hflag⟩
        line := lineLaw_of_outside (afterLine_ne_inLine s.se.timing y) rfl rfl }

end Scan

/-! ### Every event -/

/-- Every happening keeps the laws. -/
theorem Happens.laws {s u : State} {c : Instr} (hu : Happens s c u) (h : s.Laws) (hd : s.hp.softResetDue = false) : u.Laws := by
  cases hu with
  | nothing c => exact h
  | port hp => exact hp.laws h hd
  | pointer hp => exact hp.laws h
  | scan hp => exact hp.laws h
  | request k sdi b f hclk hf hk hj =>
    have howner := owner_event k f.params s
    obtain ⟨-, hdue, hselect, hreset, -⟩ := howner.port_kept
    exact (howner.laws h).replyWith _ _ _ (hselect.trans hclk.1) (hreset.trans hclk.2.1) (hdue.trans hd)
  | resetAssert => exact resetAsserted_laws h
  | guardLine level => exact h.setGuard s.rgt.guardEnable level
  | fallbackLine level => exact h.setSe h.scan h.waiting rfl rfl rfl rfl

/-- The state after power-on (R24, R64, R96, R118, R133, R154, R182), whatever the column drivers and the model's own fields. -/
theorem powerOn_laws (select guard fallback : LineLevel) (panel : Panel) (n : Nat) (q : List Instr) :
    (State.mk (Rgt.powerOn guard) Csu.powerOn (Se.powerOn fallback) ⟨[], 0⟩ ⟨none, 0⟩ Pu.powerOn (Hp.powerOn select)
      (Pins.powerOn select) panel n q).Laws where
  table :=
    { stack := ⟨.nil, by simp [Rgt.powerOn], fun i hi => by simp [Slot.cleared] at hi, .nil⟩
      slots := fun i => by rw [slotAt_powerOn]; exact slotOk_cleared _ _ _ _
      list := listLaw_nil fun i => by simp [Slot.cleared]
      groups := by simp [Csu.powerOn]
      held := heldOk_of_not_captured (by simp [Pu.powerOn]) }
  pu := by simp [PuLaw, Pu.powerOn]
  timing := by simp [TimingLaw, Se.powerOn]
  waiting := by simp [Csu.powerOn]
  scan := by simp [ScanLaw, Se.powerOn, ScanPlace.within]
  line := lineLaw_of_outside (by simp [Se.powerOn]) rfl rfl
  port := by cases select <;> simp [PortLaw, Hp.powerOn]
  sdo := by cases select <;> simp [SdoLaw, Hp.powerOn, Pins.powerOn]
  receiver := trivial

/-- Every command keeps the laws. -/
theorem exec_laws {c : Instr} {s t : State} (h : s.Laws) (hexec : exec c s = .next t) : t.Laws := by
  by_cases hc : c.isPowerOn
  · obtain ⟨select, guard, fallback, rfl⟩ := hc
    rw [done_eq_next.1 hexec]
    exact (powerOn_laws select guard fallback s.panel s.freeReads s.pending).judgeNote
  · obtain ⟨u, hu, rfl⟩ := exec_happens hc hexec
    exact (hu.laws h.settled s.settled_softResetDue).judgeNote

/-- Every step keeps the laws. -/
theorem step_laws {s t : State} (h : s.Inv) (hstep : step s = .next t) : t.Laws := by
  unfold step at hstep
  split at hstep
  · injection hstep with he
    exact he ▸ h.laws
  · exact exec_laws (h.laws.setPending _) hstep

/-- The laws with NOTE judged are the laws of the state. -/
theorem State.Laws.inv {s : State} (h : s.Laws) (hnote : s.pins.note = noteLevel s) : s.Inv where
  stack := h.table.stack
  slots := fun i => (h.table.slots i).law
  staging := h.stagingLaw
  touch := h.touchLaw
  area := h.areaLaw
  ranges := h.rangeLaw
  scan := h.scan
  line := h.line
  port := h.port
  sdo := h.sdo
  receiver := h.receiver
  note := hnote

/-! ### The statements -/

/-- Settles O5: the laws are kept by every happening, and so by every step. -/
theorem stepKeepsStackingLaw : Obligations.StepKeepsStackingLaw := fun _ _ h hstep => (step_laws h hstep).table.stack

/-- Settles O6, as one of the laws that every step keeps. -/
theorem stepKeepsSlotLaw : Obligations.StepKeepsSlotLaw := fun _ _ h hstep i => ((step_laws h hstep).table.slots i).law

/-- Settles O7, as one of the laws that every step keeps. -/
theorem stepKeepsStagingLaw : Obligations.StepKeepsStagingLaw := fun _ _ h hstep => (step_laws h hstep).stagingLaw

/-- Settles O8, as one of the laws that every step keeps. -/
theorem stepKeepsTouchLaw : Obligations.StepKeepsTouchLaw := fun _ _ h hstep => (step_laws h hstep).touchLaw

/-- Settles O9, as two of the laws that every step keeps. -/
theorem stepKeepsAreaAndRangeLaws : Obligations.StepKeepsAreaAndRangeLaws := fun _ _ h hstep =>
  ⟨(step_laws h hstep).areaLaw, (step_laws h hstep).rangeLaw⟩

/-- Settles O10, as one of the laws that every step keeps. -/
theorem stepKeepsScanLaw : Obligations.StepKeepsScanLaw := fun _ _ h hstep => (step_laws h hstep).scan

/-- Settles O11, as one of the laws that every step keeps. -/
theorem stepKeepsLineLaw : Obligations.StepKeepsLineLaw := fun _ _ h hstep => (step_laws h hstep).line

/-- Settles O12, as three of the laws that every step keeps. -/
theorem stepKeepsPortAndReceiverLaws : Obligations.StepKeepsPortAndReceiverLaws := fun _ _ h hstep =>
  ⟨(step_laws h hstep).port, (step_laws h hstep).sdo, (step_laws h hstep).receiver⟩

/-- Settles O4: the laws hold of the state after power-on, with the lines at any levels. -/
theorem lawsHoldAfterPowerOn : Obligations.LawsHoldAfterPowerOn := by
  refine ⟨(powerOn_laws .released .released .released ⟨[], []⟩ 0 []).inv rfl, fun select guard fallback s t hexec => ?_⟩
  have hlaws := (powerOn_laws select guard fallback s.panel s.freeReads s.pending).judgeNote
  rw [← done_eq_next.1 hexec] at hlaws
  exact hlaws.inv (exec_note hexec)

end Sys2Proof.Machine
end

section
/-! PROOFS. What an event can do to the region table: the changes of slot states (R2), the telltales under guard (R73), and the events
that leave the table as it is. -/

namespace Sys2Proof.Machine
open Sys2Proof

-- One theorem after another, as in the tests: each thread of its own takes a stack and a heap of the checker's memory.
set_option Elab.async false

/-! ### What an event does to the table -/

/-- What an event does to the table and the order: touch parts at most, a reservation, the release of reservations, or an apply point
of a set that stands on the event's own table. -/
inductive TableEvent (s : State) : Instr → SlotTable → List Handle → Prop
  | touched (c : Instr) (t : SlotTable) : SameRegions s.rgt.slots t → TableEvent s c t s.rgt.stack
  | reserved (sdi : SdiBits) (f : Frame) (i : Fin 32) (d : RegionRecord) : s.hp.trans = .receiving f →
      (slotAt s.rgt.slots i).state = .free →
      TableEvent s (.create sdi) (reserveSlot s.rgt.slots i d) s.rgt.stack
  | released (c : Instr) (t : SlotTable) : c.emptiesList →
      SameRegions (releaseReservations s.rgt.slots s.csu.changes) t → TableEvent s c t s.rgt.stack
  | applied (c : Instr) (r : State) : c.isApplyPoint → SameRegions s.rgt.slots r.rgt.slots → r.rgt.stack = s.rgt.stack →
      r.rgt.guardInForce = s.rgt.guardInForce →
      (s.Laws → TableLaws r.rgt.slots r.rgt.stack r.csu.changes r.pu.contact r.se.area) →
      TableEvent s c (applySet r).rgt.slots (applySet r).rgt.stack

section Events
variable {s u : State} {c : Instr}

theorem TableEvent.of_rgt_eq (hslots : u.rgt.slots = s.rgt.slots) (hstack : u.rgt.stack = s.rgt.stack) :
    TableEvent s c u.rgt.slots u.rgt.stack := by
  rw [hslots, hstack]
  exact .touched c _ (.refl _)

theorem Repoints.tableEvent (h : Repoints s u) : TableEvent s c u.rgt.slots u.rgt.stack := by
  obtain ⟨t, contact, n, l, ht, rfl⟩ := h
  exact .touched c t ht

theorem PortEvent.rgt_eq (hu : PortEvent s c u) : u.rgt = s.rgt := by cases hu <;> rfl

theorem PointerEvent.tableEvent (hu : PointerEvent s c u) : TableEvent s c u.rgt.slots u.rgt.stack := by
  cases hu with
  | kept line ch r hr => exact .of_rgt_eq rfl rfl
  | faulted line ch r hr => exact .of_rgt_eq rfl rfl
  | report c ch bytes hb =>
    obtain ⟨link, range, -, -, t, contact, n, l, ht, heq⟩ := reportEffect_repoints (judgeReport s bytes ch.data) s
    rw [heq]
    exact .touched c _ ht
  | tick c howed =>
    obtain ⟨v, hv, heq⟩ := takeTick_repoints s
    rw [heq]
    exact hv.tableEvent

/-- CSU takes an apply point on a table that differs from the event's in touch parts only. -/
theorem applyIfPending_tableEvent (hc : c.isApplyPoint) {r : State} (hslots : SameRegions s.rgt.slots r.rgt.slots)
    (hstack : r.rgt.stack = s.rgt.stack) (hguard : r.rgt.guardInForce = s.rgt.guardInForce)
    (hlaws : s.Laws → TableLaws r.rgt.slots r.rgt.stack r.csu.changes r.pu.contact r.se.area) :
    TableEvent s c (applyIfPending r).rgt.slots (applyIfPending r).rgt.stack := by
  unfold applyIfPending
  split
  · exact .applied c r hc hslots hstack hguard hlaws
  · rw [hstack]
    exact .touched c _ hslots

/-- A frame start changes touch parts at most before CSU takes it, and keeps the guard. -/
theorem frameOpened_table (order : FrameOrder) (frame : BitVec 6) (s : State) :
    SameRegions s.rgt.slots (frameOpened order frame s).rgt.slots ∧ (frameOpened order frame s).rgt.stack = s.rgt.stack
      ∧ (frameOpened order frame s).rgt.guardInForce = s.rgt.guardInForce := by
  cases order with
  | csuFirst => exact ⟨.refl _, rfl, rfl⟩
  | puFirst =>
    obtain ⟨u, ⟨t, c, n, l, ht, rfl⟩, heq⟩ := takeTick_repoints (s.beginFrame frame)
    rw [frameOpened, heq]
    exact ⟨ht, rfl, rfl⟩

theorem ScanEvent.tableEvent (hu : ScanEvent s c u) : TableEvent s c u.rgt.slots u.rgt.stack := by
  cases hu with
  | frameStart order frame hscan hf =>
    obtain ⟨hslots, hstack, hguard⟩ := frameOpened_table order frame s
    exact applyIfPending_tableEvent (.inr (.inl ⟨order, rfl⟩)) hslots hstack hguard fun h => (frameOpened_laws h hscan hf order).table
  | stopPoint hscan hat =>
    exact applyIfPending_tableEvent (.inr (.inr rfl)) (.refl _) rfl rfl fun h => (scanEnded_laws h hat).table
  | _ => exact .of_rgt_eq rfl rfl

theorem OwnerEvent.tableEvent {k : RequestKind} {f : Frame} (hu : OwnerEvent s k u) (hf : s.hp.trans = .receiving f) (sdi : SdiBits) :
    TableEvent s (k.row sdi) u.rgt.slots u.rgt.stack := by
  cases hu with
  | create d i hopen hlen hd hl hi => exact .reserved sdi f i d hf hi
  | publishApplies hopen hscan =>
    exact .applied _ (s.setCsu { s.csu with seq := s.csu.seq + 1 }) (.inl ⟨sdi, rfl⟩) (.refl _) rfl rfl fun h => h.table
  | withdraw hpending => exact .released _ _ (.inr (.inl ⟨sdi, rfl⟩)) (.refl _)
  | discard hopen => exact .released _ _ (.inl ⟨sdi, rfl⟩) (.refl _)
  | disable timeout hlow hhigh => exact (disableContact_repoints s).tableEvent
  | readTouch h => exact .touched _ _ (sameRegions_mapTouch _ _ _)
  | _ => exact .of_rgt_eq rfl rfl

/-- Every happening is one of the four at the table. -/
theorem Happens.tableEvent (hu : Happens s c u) : TableEvent s c u.rgt.slots u.rgt.stack := by
  cases hu with
  | port hp => rw [hp.rgt_eq]; exact .touched c _ (.refl _)
  | pointer hp => exact hp.tableEvent
  | scan hp => exact hp.tableEvent
  | request k sdi b f hclk hf hk hj => exact (owner_event k f.params s).tableEvent hf sdi
  | resetAssert =>
    rw [resetAsserted_eq, blocksReset_eq]
    exact .released _ _ (.inr (.inr rfl)) (retouches_touchCleared _).sameRegions
  | _ => exact .of_rgt_eq rfl rfl

end Events

/-! ### The slots at an apply point -/

/-- What a change that has passed does to a slot: nothing, the reserved region made LIVE, a LIVE region amended, locked or retired; an
AMEND and a RETIRE do not touch a telltale while the guard is in force (R19, R20, R21, R72, R76). -/
inductive Carried (guard : Bool) (a b : Slot) : Prop
  | same : b = a → Carried guard a b
  | made : a.state = .reserved → b.state = .live → b.gen = a.gen → b.record.cls = a.record.cls → Carried guard a b
  | amended : a.state = .live → ¬(guard = true ∧ a.record.cls = .telltale) → b.state = .live → b.gen = a.gen →
      b.record.cls = a.record.cls → Carried guard a b
  | locked : a.state = .live → b = { a with record := { a.record with locked := true } } → Carried guard a b
  | retired : a.state = .live → ¬(guard = true ∧ a.record.cls = .telltale) → b = a.freed → Carried guard a b

section Step
variable {guard : Bool} {area : Option (Nat × Nat)} {c : Contact} {w : Working} {ch : Change} {rest : List Change}

/-- The target of an AMEND, a RETIRE or a RESTACK that has passed: LIVE, and no telltale while the guard is in force (R56, R72). -/
theorem WorkLaws.live_of_targetFault (h : WorkLaws area c w (ch :: rest)) (hch : ch.isCreate = false)
    (hf : targetFault guard w ch.target = none) :
    (slotAt w.slots ch.target.slot).state = .live
      ∧ ¬(guard = true ∧ (slotAt w.slots ch.target.slot).record.cls = .telltale) := by
  obtain ⟨hcur, -, hguard⟩ := targetFault_eq_none_iff.1 hf
  exact ⟨(isLive_iff.1 (h.target_live hch hcur)).2, hguard⟩

theorem WorkLaws.carried (h : WorkLaws area c w (ch :: rest)) (hf : changeFault guard area w ch = none) (i : Fin 32) :
    Carried guard (slotAt w.slots i) (slotAt (Machine.carryOut w ch).slots i) := by
  by_cases hi : i = ch.target.slot
  · subst hi
    obtain ⟨index, a, op⟩ := ch
    cases op with
    | create d =>
      have hslot : slotAt w.slots a.slot = ⟨.reserved, a.gen, d, none⟩ := h.creates _ List.mem_cons_self rfl
      exact .made (by rw [hslot]) (by simp [Machine.carryOut]) (by simp [Machine.carryOut]) (by simp [Machine.carryOut, hslot])
    | amend g =>
      obtain ⟨hlive, hguard⟩ := h.live_of_targetFault rfl (Option.or_eq_none_iff.1 hf).1
      exact .amended hlive hguard (by simp [Machine.carryOut, hlive]) (by simp [Machine.carryOut])
        (by simp [Machine.carryOut, amendRecord_cls])
    | retire =>
      obtain ⟨hlive, hguard⟩ := h.live_of_targetFault rfl hf
      exact .retired hlive hguard (by simp [Machine.carryOut])
    | restack p => exact .same rfl
    | lock =>
      have hcur : isCurrent w.slots a = true := by
        by_contra hn
        simp [changeFault, hn] at hf
      exact .locked (isLive_iff.1 (h.target_live rfl hcur)).2 (by simp [Machine.carryOut])
  · exact .same (slotAt_carryOut_of_ne hi)

end Step

/-! ### The changes of a slot's state (R2) -/

/-- What R2's table lets an event do to a slot, where the event may commit a set, release reservations or bring a soft reset: a slot
that is kept keeps its class, and a FREE slot is kept whole. -/
inductive SlotMove (commits releases resets : Prop) (a b : Slot) : Prop
  | kept : b.state = a.state → b.gen = a.gen → b.record.cls = a.record.cls → (a.state = .free → b = a) →
      SlotMove commits releases resets a b
  | made : a.state = .reserved → b.state = .live → b.gen = a.gen → b.record.cls = a.record.cls → commits →
      SlotMove commits releases resets a b
  | released : a.state = .reserved → b = a.freed → commits ∨ releases ∨ resets → SlotMove commits releases resets a b
  | retired : a.state = .live → b = a.freed → commits ∨ resets → SlotMove commits releases resets a b

section Moves
variable {commits releases resets : Prop}

theorem SlotMove.refl (a : Slot) : SlotMove commits releases resets a a := .kept rfl rfl rfl fun _ => rfl

/-- A slot in FREE stays as it is. -/
theorem SlotMove.eq_of_free {a b : Slot} (h : SlotMove commits releases resets a b) (ha : a.state = .free) : b = a := by
  cases h with
  | kept _ _ _ hfree => exact hfree ha
  | made hr => simp [ha] at hr
  | released hr => simp [ha] at hr
  | retired hr => simp [ha] at hr

theorem SlotMove.trans {a b d : Slot} (hab : SlotMove commits releases resets a b) (hbd : SlotMove commits releases resets b d) :
    SlotMove commits releases resets a d := by
  have hfreed {x : Slot} (hx : b = x.freed) : d = x.freed := by rw [← hx]; exact hbd.eq_of_free (by rw [hx]; rfl)
  cases hab with
  | released hr hb hwhy => exact .released hr (hfreed hb) hwhy
  | retired hl hb hwhy => exact .retired hl (hfreed hb) hwhy
  | kept hst hg hc hfree =>
    have hsame : b.freed = a.freed := by rw [Slot.freed, Slot.freed, hg]
    cases hbd with
    | kept hst' hg' hc' hfree' =>
      exact .kept (hst'.trans hst) (hg'.trans hg) (hc'.trans hc) fun ha => (hfree' (hst.trans ha)).trans (hfree ha)
    | made hr hl hg' hc' hwhy => exact .made (hst ▸ hr) hl (hg'.trans hg) (hc'.trans hc) hwhy
    | released hr hd hwhy => exact .released (hst ▸ hr) (hd.trans hsame) hwhy
    | retired hl hd hwhy => exact .retired (hst ▸ hl) (hd.trans hsame) hwhy
  | made hr hl hg hc hwhy =>
    have hsame : b.freed = a.freed := by rw [Slot.freed, Slot.freed, hg]
    cases hbd with
    | kept hst' hg' hc' _ => exact .made hr (hst'.trans hl) (hg'.trans hg) (hc'.trans hc) hwhy
    | made hr' => simp [hl] at hr'
    | released hr' => simp [hl] at hr'
    | retired _ hd _ => exact .released hr (hd.trans hsame) (.inl hwhy)

/-- The moves of every slot of a table. -/
def Moves (commits releases resets : Prop) (t u : SlotTable) : Prop :=
  ∀ i, SlotMove commits releases resets (slotAt t i) (slotAt u i)

theorem Moves.trans {t u v : SlotTable} (h : Moves commits releases resets t u) (h' : Moves commits releases resets u v) :
    Moves commits releases resets t v := fun i => (h i).trans (h' i)

theorem slotLaw_free {x : Slot} (h : SlotLaw x) (hx : x.state = .free) : x = Slot.cleared x.gen := h.1 hx

/-- Tables that differ in touch parts only, and hold nothing in their FREE slots. -/
theorem SameRegions.moves {t u : SlotTable} (h : SameRegions t u) (ht : ∀ i, SlotLaw (slotAt t i)) (hu : ∀ i, SlotLaw (slotAt u i)) :
    Moves commits releases resets t u := by
  intro i
  obtain ⟨q, hq⟩ := h i
  refine .kept (by rw [hq]) (by rw [hq]) (by rw [hq]) fun ha => ?_
  rw [slotLaw_free (hu i) (by rw [hq]; exact ha), slotLaw_free (ht i) ha, hq]

theorem moves_release (hwhy : commits ∨ releases ∨ resets) (t : SlotTable) (changes : List Change) :
    Moves commits releases resets t (releaseReservations t changes) := by
  intro i
  rw [slotAt_releaseReservations]
  split
  · next h => exact .released h.1 rfl hwhy
  · exact .refl _

theorem Carried.move {guard : Bool} {a b : Slot} (h : Carried guard a b) (hwhy : commits) :
    SlotMove commits releases resets a b := by
  cases h with
  | same hb => rw [hb]; exact .refl a
  | made hr hl hg hc => exact .made hr hl hg hc hwhy
  | amended hl hguard hb hg hc => exact .kept (hb.trans hl.symm) hg hc fun ha => by simp [hl] at ha
  | locked hl hb => exact .kept (by rw [hb]) (by rw [hb]) (by rw [hb]) fun ha => by simp [hl] at ha
  | retired hl hguard hb => exact .retired hl hb (.inl hwhy)

theorem moves_evaluate (hwhy : commits) {guard : Bool} {area : Option (Nat × Nat)} {c : Contact} {changes : List Change}
    {w w' : Working} (h : WorkLaws area c w changes) (hw : evaluate guard area w changes = .passed w') :
    Moves commits releases resets w.slots w'.slots := by
  induction changes generalizing w with
  | nil => cases hw; exact fun i => .refl _
  | cons ch rest ih =>
    rw [evaluate_cons] at hw
    split at hw
    · cases hw
    · next hf => exact Moves.trans (fun i => (h.carried hf i).move hwhy) (ih (h.carryOut hf) hw)

theorem moves_applySet (hwhy : commits) {s : State}
    (h : TableLaws s.rgt.slots s.rgt.stack s.csu.changes s.pu.contact s.se.area)
    (hafter : ∀ i, SlotLaw (slotAt (applySet s).rgt.slots i)) :
    Moves commits releases resets s.rgt.slots (applySet s).rgt.slots := by
  rcases applySet_cases s with ⟨w, hw, heq⟩ | ⟨i, code, -, heq⟩
  · have hsame : SameRegions w.slots (applySet s).rgt.slots := heq ▸ commitSet_sameRegions w s
    exact (moves_evaluate hwhy h.workLaws hw).trans
      (hsame.moves (fun i => ((h.workLaws.evaluate hw).slots i).law) hafter)
  · rw [heq]
    exact moves_release (.inl hwhy) _ _

theorem softResetEffect_slots (s : State) : (softResetEffect s).rgt.slots = softResetSlots s := by
  rw [softResetEffect_eq]
  rfl

theorem softResetEffect_stack (s : State) : (softResetEffect s).rgt.stack = s.rgt.stack.filter fun a =>
    !(slotAt (releaseReservations s.rgt.slots s.csu.changes) a.slot).softRetired s.rgt.guardInForce := by
  rw [softResetEffect_eq]
  rfl

/-- The slots at a soft reset (R26, R66). -/
theorem moves_softReset (hwhy : resets) {s : State} (h : s.Laws) :
    Moves commits releases resets s.rgt.slots (softResetEffect s).rgt.slots := by
  have hafter := (softResetEffect_laws h).table
  have hreleased := h.table.release
  rw [softResetEffect_slots] at hafter ⊢
  refine Moves.trans (moves_release (.inr (.inr hwhy)) s.rgt.slots s.csu.changes) ?_
  have hretired : Moves commits releases resets (releaseReservations s.rgt.slots s.csu.changes)
      (softRetiredTable s.rgt (releaseReservations s.rgt.slots s.csu.changes)) := by
    intro i
    rw [softRetiredTable, slotAt_tabulate]
    split
    · next hr =>
      simp only [Slot.softRetired, Bool.and_eq_true, beq_iff_eq] at hr
      exact .retired hr.1.1 rfl (.inr hwhy)
    · exact .refl _
  refine hretired.trans (SameRegions.moves (retouches_touchCleared _).sameRegions (fun i => ?_) fun i => (hafter.slots i).law)
  rw [softRetiredTable, slotAt_tabulate]
  split
  · exact (slotOk_freed none .up i _).law
  · exact (hreleased.slots i).law

theorem moves_settled {s : State} (h : s.Laws) :
    Moves commits releases (s.hp.softResetDue = true) s.rgt.slots s.settled.rgt.slots := by
  rcases s.settled_cases with ⟨-, heq⟩ | ⟨hd, heq⟩ <;> rw [heq]
  · exact fun i => .refl _
  · exact moves_softReset hd h

end Moves

/-- What an event does to the slots, but for a CREATE's reservation, is what R2's table lists. -/
theorem TableEvent.moves {resets : Prop} {s : State} {c : Instr} {t : SlotTable} {stack : List Handle} (he : TableEvent s c t stack)
    (h : s.Laws) (ht : ∀ i, SlotLaw (slotAt t i)) :
    Moves c.isApplyPoint c.emptiesList resets s.rgt.slots t
      ∨ ∃ sdi f i d, c = .create sdi ∧ s.hp.trans = .receiving f ∧ (slotAt s.rgt.slots i).state = .free
        ∧ t = reserveSlot s.rgt.slots i d := by
  have hslots (i : Fin 32) : SlotLaw (slotAt s.rgt.slots i) := (h.table.slots i).law
  cases he with
  | touched c t hsame => exact .inl (hsame.moves hslots ht)
  | reserved sdi f i d hf hi => exact .inr ⟨sdi, f, i, d, rfl, hf, hi, rfl⟩
  | released c t hc hsame =>
    exact .inl ((moves_release (.inr (.inl hc)) _ _).trans (hsame.moves (fun i => (h.table.release.slots i).law) ht))
  | applied c r hc hsame hstack hguard hlaws =>
    have hr := hlaws h
    exact .inl ((hsame.moves hslots fun i => (hr.slots i).law).trans (moves_applySet hc hr ht))

/-- The clauses of R2's table, read off a move. -/
theorem SlotMove.listed {commits releases resets created : Prop} {a b : Slot} (h : SlotMove commits releases resets a b) :
    (b.state = a.state ∧ b.gen = a.gen ∧ b.record.cls = a.record.cls)
      ∨ (a.state = .free ∧ b.state = .reserved ∧ b.gen = a.gen ∧ created)
      ∨ (a.state = .reserved ∧ b.state = .live ∧ b.gen = a.gen ∧ b.record.cls = a.record.cls ∧ commits)
      ∨ (a.state = .reserved ∧ b = Slot.cleared (a.gen + 1) ∧ (commits ∨ releases ∨ resets))
      ∨ (a.state = .live ∧ b = Slot.cleared (a.gen + 1) ∧ (commits ∨ resets)) := by
  cases h with
  | kept hst hg hc hfree => exact .inl ⟨hst, hg, hc⟩
  | made hr hl hg hc hwhy => exact .inr (.inr (.inl ⟨hr, hl, hg, hc, hwhy⟩))
  | released hr hb hwhy => exact .inr (.inr (.inr (.inl ⟨hr, hb, hwhy⟩)))
  | retired hl hb hwhy => exact .inr (.inr (.inr (.inr ⟨hl, hb, hwhy⟩)))

/-- A due soft reset finds no request received (R180). -/
theorem settled_not_receiving {s : State} (h : s.Laws) (hd : s.hp.softResetDue = true) (f : Frame) :
    s.settled.hp.trans ≠ .receiving f := by
  obtain ⟨-, -, -, -, hdue, -⟩ := h.port
  have htrans : s.settled.hp.trans = s.hp.trans := by rw [State.settled_of_due hd, softResetEffect_eq]; rfl
  rw [htrans]
  rcases hdue hd with he | he | he <;> simp [he]

/-- Settles O16: a due soft reset moves the slots first, and the happening then moves them or reserves one. -/
theorem slotsChangeStateOnlyAsListed : Obligations.SlotsChangeStateOnlyAsListed := by
  intro c s t i hinv hc hexec
  have h := hinv.laws
  obtain ⟨u, hu, rfl⟩ := exec_happens hc hexec
  have ht (j : Fin 32) := ((hu.laws h.settled s.settled_softResetDue).table.slots j).law
  rcases hu.tableEvent.moves (resets := s.hp.softResetDue = true) h.settled ht with hm | ⟨sdi, f, j, d, rfl, hf, hj, ht⟩
  · exact (((moves_settled h).trans hm) i).listed
  · have hd : s.hp.softResetDue = false := by
      by_contra hd
      exact settled_not_receiving h (by simpa using hd) f hf
    rw [State.settled_of_not_due hd] at hj ht
    simp only [State.judgeNote_rgt, ht, reserveSlot, slotAt_putSlot]
    split
    · next he =>
      subst he
      exact .inr (.inl ⟨hj, rfl, rfl, sdi, rfl⟩)
    · exact .inl ⟨rfl, rfl, rfl⟩

/-! ### The telltales under guard (R73) -/

/-- The telltales of a list, as a table and an order hold them: LIVE at their generations, with their records but for a lock, in the
list's order. -/
structure HoldsTelltales (t : SlotTable) (tells : List Handle) (u : SlotTable) (stack : List Handle) : Prop where
  live : ∀ a ∈ tells, (slotAt u a.slot).state = .live ∧ (slotAt u a.slot).gen = a.gen
  record : ∀ a ∈ tells, { (slotAt u a.slot).record with locked := (slotAt t a.slot).record.locked } = (slotAt t a.slot).record
  locked : ∀ a ∈ tells, (slotAt t a.slot).record.locked = true → (slotAt u a.slot).record.locked = true
  order : stack.filter tells.contains = tells
  tells : ∀ a ∈ tells, classOf t a = .telltale

section Guard
variable {t u v : SlotTable} {tells stack stack' : List Handle}

theorem HoldsTelltales.cls (h : HoldsTelltales t tells u stack) {a : Handle} (ha : a ∈ tells) :
    (slotAt u a.slot).record.cls = .telltale := by
  have hcls := congrArg RegionRecord.cls (h.record a ha)
  exact hcls.trans (h.tells a ha)

/-- A change that keeps the telltales' slots but for touch parts, and their order. -/
theorem HoldsTelltales.of_kept (h : HoldsTelltales t tells u stack)
    (hslots : ∀ a ∈ tells, ∃ q, slotAt v a.slot = { slotAt u a.slot with touch := q })
    (horder : stack'.filter tells.contains = stack.filter tells.contains) : HoldsTelltales t tells v stack' where
  live := fun a ha => by obtain ⟨q, hq⟩ := hslots a ha; rw [hq]; exact h.live a ha
  record := fun a ha => by obtain ⟨q, hq⟩ := hslots a ha; rw [hq]; exact h.record a ha
  locked := fun a ha => by obtain ⟨q, hq⟩ := hslots a ha; rw [hq]; exact h.locked a ha
  order := horder.trans h.order
  tells := h.tells

theorem HoldsTelltales.of_sameRegions (h : HoldsTelltales t tells u stack) (hv : SameRegions u v) : HoldsTelltales t tells v stack :=
  h.of_kept (fun a _ => hv a.slot) rfl

theorem HoldsTelltales.release (h : HoldsTelltales t tells u stack) (changes : List Change) :
    HoldsTelltales t tells (releaseReservations u changes) stack :=
  h.of_kept (fun a ha => ⟨(slotAt u a.slot).touch, by rw [slotAt_releaseReservations, if_neg (by simp [(h.live a ha).1])]⟩) rfl

theorem filter_erase_of_not {a : Handle} {l : List Handle} {p : Handle → Bool} (hp : p a = false) :
    (l.erase a).filter p = l.filter p := by
  induction l with
  | nil => rfl
  | cons b l ih =>
    by_cases hb : b = a
    · subst hb
      rw [List.erase_cons_head, List.filter_cons_of_neg (by simp [hp])]
    · rw [List.erase_cons_tail (by simpa using hb), List.filter_cons, List.filter_cons, ih]

variable {area : Option (Nat × Nat)} {c : Contact} {w : Working} {ch : Change} {rest : List Change}

/-- While the guard is in force a change that has passed holds the telltales (R72, R73). -/
theorem HoldsTelltales.carryOut (h : HoldsTelltales t tells w.slots w.stack) (hw : WorkLaws area c w (ch :: rest))
    (hf : changeFault true area w ch = none) :
    HoldsTelltales t tells (Machine.carryOut w ch).slots (Machine.carryOut w ch).stack := by
  have hspared (hlive : (slotAt w.slots ch.target.slot).state ≠ .live
      ∨ (slotAt w.slots ch.target.slot).record.cls ≠ .telltale) : tells.contains ch.target = false := by
    rw [← Bool.not_eq_true, List.contains_iff_mem]
    intro hmem
    rcases hlive with hn | hn
    · exact hn (h.live _ hmem).1
    · exact hn (h.cls hmem)
  have horder : (Machine.carryOut w ch).stack.filter tells.contains = w.stack.filter tells.contains := by
    obtain ⟨index, a, op⟩ := ch
    cases op with
    | create d =>
      have hslot : slotAt w.slots a.slot = ⟨.reserved, a.gen, d, none⟩ := hw.creates _ List.mem_cons_self rfl
      exact filter_insertAt (hspared (.inl (by simp [hslot])))
    | amend g => rfl
    | retire =>
      obtain ⟨-, hguard⟩ := hw.live_of_targetFault rfl hf
      exact filter_erase_of_not (hspared (.inr fun he => hguard ⟨rfl, he⟩))
    | restack p =>
      obtain ⟨-, hguard⟩ := hw.live_of_targetFault rfl (Option.or_eq_none_iff.1 hf).1
      have hnot := hspared (.inr fun he => hguard ⟨rfl, he⟩)
      show (restackList w.free w.slots w.stack a p).filter _ = _
      rw [restackList_eq, filter_insertAt hnot, filter_erase_of_not hnot]
    | lock => rfl
  have hslot (a : Handle) (ha : a ∈ tells) : slotAt (Machine.carryOut w ch).slots a.slot = slotAt w.slots a.slot
      ∨ slotAt (Machine.carryOut w ch).slots a.slot
        = { slotAt w.slots a.slot with record := { (slotAt w.slots a.slot).record with locked := true } } := by
    have hlive := (h.live a ha).1
    cases hw.carried hf a.slot with
    | same hb => exact .inl hb
    | made hr => simp [hlive] at hr
    | amended _ hguard => exact absurd ⟨rfl, h.cls ha⟩ hguard
    | locked _ hb => exact .inr hb
    | retired _ hguard => exact absurd ⟨rfl, h.cls ha⟩ hguard
  exact
    { live := fun a ha => by rcases hslot a ha with hb | hb <;> rw [hb] <;> exact h.live a ha
      record := fun a ha => by rcases hslot a ha with hb | hb <;> rw [hb] <;> exact h.record a ha
      locked := fun a ha hl => by
        rcases hslot a ha with hb | hb <;> rw [hb]
        exact h.locked a ha hl
      order := horder.trans h.order
      tells := h.tells }

theorem HoldsTelltales.evaluate {changes : List Change} {w' : Working} (h : HoldsTelltales t tells w.slots w.stack)
    (hw : WorkLaws area c w changes) (hev : evaluate true area w changes = .passed w') :
    HoldsTelltales t tells w'.slots w'.stack := by
  induction changes generalizing w with
  | nil => cases hev; exact h
  | cons ch rest ih =>
    rw [evaluate_cons] at hev
    split at hev
    · cases hev
    · next hf => exact ih (h.carryOut hw hf) (hw.carryOut hf) hev

/-- An apply point under guard holds the telltales. -/
theorem HoldsTelltales.applySet {s : State} (h : HoldsTelltales t tells s.rgt.slots s.rgt.stack)
    (htable : TableLaws s.rgt.slots s.rgt.stack s.csu.changes s.pu.contact s.se.area) (hguard : s.rgt.guardInForce = true) :
    HoldsTelltales t tells (applySet s).rgt.slots (applySet s).rgt.stack := by
  rcases applySet_cases s with ⟨w, hw, heq⟩ | ⟨i, code, -, heq⟩ <;> rw [heq]
  · rw [hguard] at hw
    have hstack : (commitSet w s).rgt.stack = w.stack := by
      obtain ⟨t, c, n, l, -, heq⟩ := takeNotice_repoints w.dropped
        (((s.setRgt { s.rgt with slots := w.slots, stack := w.stack }).setCsu (s.csu.close .applied)).setFree
          (if w.tookFree then w.free + 1 else w.free))
      rw [commitSet, heq]
      rfl
    rw [hstack]
    exact (HoldsTelltales.evaluate (w := s.working) h htable.workLaws hw).of_sameRegions (commitSet_sameRegions w s)
  · exact h.release _

/-- A soft reset under guard holds the telltales (R26, R74). -/
theorem HoldsTelltales.softReset {s : State} (h : HoldsTelltales t tells s.rgt.slots s.rgt.stack)
    (hguard : s.rgt.guardInForce = true) :
    HoldsTelltales t tells (softResetEffect s).rgt.slots (softResetEffect s).rgt.stack := by
  rw [softResetEffect_slots, softResetEffect_stack]
  have hreleased := h.release s.csu.changes
  have hspared (a : Handle) (ha : a ∈ tells) :
      (slotAt (releaseReservations s.rgt.slots s.csu.changes) a.slot).softRetired s.rgt.guardInForce = false := by
    have hcls := hreleased.cls ha
    generalize slotAt (releaseReservations s.rgt.slots s.csu.changes) a.slot = x at hcls ⊢
    simp [Slot.softRetired, hguard, hcls]
  have hretired : HoldsTelltales t tells (softRetiredTable s.rgt (releaseReservations s.rgt.slots s.csu.changes))
      (s.rgt.stack.filter fun a =>
        !(slotAt (releaseReservations s.rgt.slots s.csu.changes) a.slot).softRetired s.rgt.guardInForce) := by
    refine hreleased.of_kept
      (fun a ha => ⟨(slotAt (releaseReservations s.rgt.slots s.csu.changes) a.slot).touch, ?_⟩) ?_
    · rw [softRetiredTable, slotAt_tabulate, hspared a ha]
      rfl
    · rw [List.filter_filter]
      refine List.filter_congr fun a _ => ?_
      by_cases ha : a ∈ tells
      · simp only [hspared a ha, Bool.not_false, Bool.and_true]
      · simp [ha]
  exact hretired.of_sameRegions (retouches_touchCleared _).sameRegions

/-- Every happening under guard holds the telltales. -/
theorem HoldsTelltales.happens {s v : State} {c : Instr} (h : HoldsTelltales t tells s.rgt.slots s.rgt.stack)
    (hlaws : s.Laws) (hguard : s.rgt.guardInForce = true) (hv : Happens s c v) :
    HoldsTelltales t tells v.rgt.slots v.rgt.stack := by
  have he := hv.tableEvent
  generalize v.rgt.slots = t', v.rgt.stack = k at he ⊢
  cases he with
  | touched c t' hsame => exact h.of_sameRegions hsame
  | reserved sdi f i d hf hi =>
    refine h.of_kept (fun a ha => ⟨(slotAt s.rgt.slots a.slot).touch, ?_⟩) rfl
    refine slotAt_putSlot_of_ne fun he => ?_
    have hlive := (h.live a ha).1
    simp [he, hi] at hlive
  | released c t' hc hsame => exact (h.release _).of_sameRegions hsame
  | applied c r hc hsame hstack hguard' hr =>
    exact HoldsTelltales.applySet (by rw [hstack]; exact h.of_sameRegions hsame) (hr hlaws) (hguard'.trans hguard)

end Guard

/-- The telltales of a state, as the state itself holds them. -/
theorem holdsTelltales_self {s : State} (h : s.Laws) : HoldsTelltales s.rgt.slots
    (s.rgt.stack.filter fun a => classOf s.rgt.slots a == .telltale) s.rgt.slots s.rgt.stack where
  live := fun a ha => ⟨h.table.stack.live_of_mem (List.mem_filter.1 ha).1, (isLive_iff.1 (h.table.stack.2.1 a (List.mem_filter.1 ha).1)).1⟩
  record := fun a _ => rfl
  locked := fun a _ => id
  order := List.filter_congr fun a ha => by rw [Bool.eq_iff_iff, List.contains_iff_mem]; simp [ha]
  tells := fun a ha => by simpa using (List.mem_filter.1 ha).2

theorem settled_guardInForce (s : State) : s.settled.rgt.guardInForce = s.rgt.guardInForce := by
  rcases s.settled_cases with ⟨-, heq⟩ | ⟨-, heq⟩ <;> rw [heq]
  rw [softResetEffect_eq]
  rfl

/-- Settles O15: the soft reset that is due and then the happening hold the telltales. -/
theorem guardedTelltalesAreHeld : Obligations.GuardedTelltalesAreHeld := by
  intro c s t hinv hc hguard hexec
  have h := hinv.laws
  obtain ⟨u, hu, rfl⟩ := exec_happens hc hexec
  have hsettled : HoldsTelltales s.rgt.slots (s.rgt.stack.filter fun a => classOf s.rgt.slots a == .telltale)
      s.settled.rgt.slots s.settled.rgt.stack := by
    rcases s.settled_cases with ⟨-, heq⟩ | ⟨-, heq⟩ <;> rw [heq]
    · exact holdsTelltales_self h
    · exact (holdsTelltales_self h).softReset hguard
  have hafter := hsettled.happens h.settled ((settled_guardInForce s).trans hguard) hu
  refine ⟨fun i hlive htell => ?_, hafter.order⟩
  have hmem : handleOf s.rgt.slots i ∈ s.rgt.stack.filter fun a => classOf s.rgt.slots a == .telltale :=
    List.mem_filter.2 ⟨h.table.stack.handleOf_mem hlive, by simpa [classOf, handleOf] using htell⟩
  obtain ⟨hl, hg⟩ := hafter.live _ hmem
  exact ⟨hl, hg, hafter.record _ hmem, hafter.locked _ hmem⟩

/-- Settles O17: at no apply point and with no soft reset due the happening touches no LIVE record. -/
theorem tableChangesOnlyAtCommitsAndResets : Obligations.TableChangesOnlyAtCommitsAndResets := by
  intro c s t hc happly hd hexec
  obtain ⟨u, hu, rfl⟩ := exec_happens hc hexec
  rw [State.settled_of_not_due hd] at hu
  have he := hu.tableEvent
  simp only [State.judgeNote_rgt]
  generalize u.rgt.slots = t, u.rgt.stack = k at he ⊢
  cases he with
  | touched c t hsame =>
    refine ⟨rfl, fun i _ => ?_⟩
    obtain ⟨q, hq⟩ := hsame i
    rw [hq]
    exact ⟨rfl, rfl, rfl⟩
  | reserved sdi f j d hf hj =>
    refine ⟨rfl, fun i hi => ?_⟩
    have hne : i ≠ j := by
      rintro rfl
      rcases hi with hlive | ⟨hcreate, -⟩
      · simp [hj] at hlive
      · exact hcreate sdi rfl
    rw [reserveSlot, slotAt_putSlot_of_ne hne]
    exact ⟨rfl, rfl, rfl⟩
  | released c t hempties hsame =>
    refine ⟨rfl, fun i hi => ?_⟩
    obtain ⟨q, hq⟩ := hsame i
    rcases hi with hlive | ⟨-, hnot⟩
    · rw [hq, slotAt_releaseReservations, if_neg (by simp [hlive])]
      exact ⟨rfl, rfl, rfl⟩
    · exact absurd hempties hnot
  | applied c r happlies => exact absurd happlies happly

end Sys2Proof.Machine
end

section
/-! PROOFS. What each kind of event leaves as it stood: the settings and the line records, the change set's number and outcome, the
fault flags, the frame counter and the fallback-effective flag. -/

namespace Sys2Proof.Machine
open Sys2Proof

-- One theorem after another, as in the tests: each thread of its own takes a stack and a heap of the checker's memory.
set_option Elab.async false

/-! ### The shapes of the events -/

/-- The port fault flags that are set stay set (R176). -/
def Hp.KeepsFaults (p q : Hp) : Prop :=
  (p.cutFault = true → q.cutFault = true) ∧ (p.checkFault = true → q.checkFault = true)
    ∧ (p.lengthFault = true → q.lengthFault = true) ∧ (p.unknownFault = true → q.unknownFault = true)

theorem Hp.KeepsFaults.refl (p : Hp) : p.KeepsFaults p := ⟨id, id, id, id⟩

theorem Hp.keepsFaults_setFault (p : Hp) (e : FramingError) : p.KeepsFaults (p.setFault e) := by
  cases e <;> exact ⟨by simp [Hp.setFault], by simp [Hp.setFault], by simp [Hp.setFault], by simp [Hp.setFault]⟩

theorem Hp.setFault_kept (p : Hp) (e : FramingError) : (p.setFault e).mask = p.mask ∧ (p.setFault e).select = p.select
    ∧ (p.setFault e).resetLine = p.resetLine := by cases e <;> exact ⟨rfl, rfl, rfl⟩

theorem Hp.keepsFaults_selectRisen (p : Hp) : p.KeepsFaults p.selectRisen ∧ p.selectRisen.mask = p.mask := by
  unfold Hp.selectRisen
  dsimp only
  split <;> exact ⟨⟨by simp +contextual, id, id, id⟩, rfl⟩

section Shapes
variable {s u : State} {c : Instr}

/-- What a line or a byte of the host port writes: HP's record and SDO, with the mask kept, the faults kept, and a line record changed
by its own edge alone. -/
theorem PortEvent.shape (hu : PortEvent s c u) : ∃ x sdo, u = (s.setHp x).setPins { s.pins with sdo := sdo } ∧ x.mask = s.hp.mask
    ∧ s.hp.KeepsFaults x ∧ (c ≠ .selectFall → c ≠ .selectRise → x.select = s.hp.select)
    ∧ (c ≠ .resetRelease → x.resetLine = s.hp.resetLine) := by
  cases hu with
  | faulted c b sdi f e hclk hf he =>
    obtain ⟨hmask, hselect, hreset⟩ := s.hp.setFault_kept e
    exact ⟨_, _, rfl, hmask, s.hp.keepsFaults_setFault e, fun _ _ => hselect, fun _ => hreset⟩
  | selectFell hs => exact ⟨_, _, rfl, rfl, .refl s.hp, fun h => absurd rfl h, fun _ => rfl⟩
  | selectRose hs =>
    obtain ⟨hfaults, hmask⟩ := s.hp.keepsFaults_selectRisen
    obtain ⟨-, -, hreset⟩ := s.hp.selectRisen_select
    exact ⟨_, _, rfl, hmask, hfaults, fun _ h => absurd rfl h, fun _ => hreset⟩
  | resetReleased hr => exact ⟨{ s.hp with
      resetLine := .released
      trans := if s.hp.select = .released then .idle else .held }, s.pins.sdo, rfl, rfl, .refl s.hp, fun _ _ => rfl, fun h => absurd rfl h⟩
  | sdoLow c n hs hr => exact ⟨s.hp, _, rfl, rfl, .refl s.hp, fun _ _ => rfl, fun _ => rfl⟩
  | _ => exact ⟨_, _, rfl, rfl, .refl s.hp, fun _ _ => rfl, fun _ => rfl⟩

/-- What the pointer link and the ticks write: touch parts, PU's record but for its settings, and the owed tick. -/
theorem PointerEvent.shape (hu : PointerEvent s c u) : ∃ t r contact silence link range cause owed,
    (s.pu.linkFault = true → link = true) ∧ (s.pu.rangeFault = true → range = true)
      ∧ u = ((s.setSlots t).setPu { s.pu with
          receiver := r, contact := contact, silence := silence, linkFault := link, rangeFault := range,
          lastCause := cause }).setSe { s.se with tickOwed := owed } := by
  cases hu with
  | kept line ch r hr => exact ⟨_, r, _, _, _, _, _, _, id, id, rfl⟩
  | faulted line ch r hr => exact ⟨_, r, _, _, s.pu.linkFault || s.pu.enable, _, _, _, fun h => by simp [h], id, rfl⟩
  | report c ch bytes hb =>
    obtain ⟨link, range, hlink, hrange, t, contact, n, l, ht, heq⟩ := reportEffect_repoints (judgeReport s bytes ch.data) s
    exact ⟨t, _, contact, n, link, range, l, _, hlink, hrange, heq⟩
  | tick c howed =>
    obtain ⟨v, ⟨t, contact, n, l, ht, rfl⟩, heq⟩ := takeTick_repoints s
    exact ⟨t, _, contact, n, _, _, l, _, id, id, heq⟩

/-- What the scan keeps: the host port, the settings, the line records and the pointer's faults; CSU's record changes at the close of a
set alone. -/
structure ScanKeeps (s u : State) : Prop where
  hp : u.hp = s.hp
  pending : u.pending = s.pending
  guard : u.rgt.guardEnable = s.rgt.guardEnable ∧ u.rgt.guardLine = s.rgt.guardLine
  csu : u.csu = s.csu ∨ ∃ result, u.csu = s.csu.close result
  settings : u.pu.enable = s.pu.enable ∧ u.pu.timeout = s.pu.timeout
  faults : u.pu.linkFault = s.pu.linkFault ∧ u.pu.rangeFault = s.pu.rangeFault
  timing : u.se.timing = s.se.timing ∧ u.se.timingValid = s.se.timingValid
  line : u.se.fallbackLine = s.se.fallbackLine

theorem ScanKeeps.applyIfPending (h : ScanKeeps s u) (hcsu : u.csu = s.csu) : ScanKeeps s (applyIfPending u) := by
  obtain ⟨hhp, hpending, hguard, -, hsettings, hfaults, htiming, hline⟩ := h
  unfold Machine.applyIfPending
  split
  · obtain ⟨t, stack, result, n, contact, silence, cause, heq⟩ := applySet_writes u
    rw [heq, hcsu]
    exact ⟨hhp, hpending, hguard, .inr ⟨result, rfl⟩, hsettings, hfaults, htiming, hline⟩
  · exact ⟨hhp, hpending, hguard, .inl hcsu, hsettings, hfaults, htiming, hline⟩

theorem frameOpened_keeps (order : FrameOrder) (frame : BitVec 6) (s : State) :
    ScanKeeps s (frameOpened order frame s) ∧ (frameOpened order frame s).csu = s.csu := by
  cases order with
  | csuFirst => exact ⟨⟨rfl, rfl, ⟨rfl, rfl⟩, .inl rfl, ⟨rfl, rfl⟩, ⟨rfl, rfl⟩, ⟨rfl, rfl⟩, rfl⟩, rfl⟩
  | puFirst =>
    obtain ⟨v, ⟨t, contact, n, l, ht, rfl⟩, heq⟩ := takeTick_repoints (s.beginFrame frame)
    rw [frameOpened, heq]
    exact ⟨⟨rfl, rfl, ⟨rfl, rfl⟩, .inl rfl, ⟨rfl, rfl⟩, ⟨rfl, rfl⟩, ⟨rfl, rfl⟩, rfl⟩, rfl⟩

theorem ScanEvent.keeps (hu : ScanEvent s c u) : ScanKeeps s u := by
  cases hu with
  | frameStart order frame hscan hf =>
    obtain ⟨hkeeps, hcsu⟩ := frameOpened_keeps order frame s
    exact hkeeps.applyIfPending hcsu
  | stopPoint hscan hat =>
    have hkeeps : ScanKeeps s (scanEnded s) := ⟨rfl, rfl, ⟨rfl, rfl⟩, .inl rfl, ⟨rfl, rfl⟩, ⟨rfl, rfl⟩, ⟨rfl, rfl⟩, rfl⟩
    exact hkeeps.applyIfPending rfl
  | _ => exact ⟨rfl, rfl, ⟨rfl, rfl⟩, .inl rfl, ⟨rfl, rfl⟩, ⟨rfl, rfl⟩, ⟨rfl, rfl⟩, rfl⟩

end Shapes

/-! ### The settings and the line records (R67, R68, R82, R95, R138, R179) -/

/-- Each setting and line record is kept, but by its own request or line event. -/
structure KeepsSettings (c : Instr) (s t : State) : Prop where
  guardEnable : (∀ sdi, c ≠ .guardOn sdi) → (∀ sdi, c ≠ .guardOff sdi) → t.rgt.guardEnable = s.rgt.guardEnable
  guardLine : (∀ level, c ≠ .guardLineChange level) → t.rgt.guardLine = s.rgt.guardLine
  fallbackLine : (∀ level, c ≠ .fallbackLineChange level) → t.se.fallbackLine = s.se.fallbackLine
  timing : (∀ sdi, c ≠ .setTiming sdi) → t.se.timing = s.se.timing ∧ t.se.timingValid = s.se.timingValid
  pointer : (∀ sdi, c ≠ .pointerSettings sdi) → t.pu.enable = s.pu.enable ∧ t.pu.timeout = s.pu.timeout
  mask : (∀ sdi, c ≠ .setNoteMask sdi) → t.hp.mask = s.hp.mask
  select : c ≠ .selectFall → c ≠ .selectRise → t.hp.select = s.hp.select
  resetLine : c ≠ .resetAssert → c ≠ .resetRelease → t.hp.resetLine = s.hp.resetLine

section Settings
variable {s u : State} {c : Instr}

theorem KeepsSettings.refl (c : Instr) (s : State) : KeepsSettings c s s :=
  ⟨fun _ _ => rfl, fun _ => rfl, fun _ => rfl, fun _ => ⟨rfl, rfl⟩, fun _ => ⟨rfl, rfl⟩, fun _ => rfl, fun _ _ => rfl, fun _ _ => rfl⟩

theorem OwnerEvent.keepsSettings {k : RequestKind} (hu : OwnerEvent s k u) (sdi : SdiBits) : KeepsSettings (k.row sdi) s u := by
  cases hu with
  | guardOn => exact { KeepsSettings.refl _ s with guardEnable := fun h => absurd rfl (h sdi) }
  | guardOff hline => exact { KeepsSettings.refl _ s with guardEnable := fun _ h => absurd rfl (h sdi) }
  | setTiming t => exact { KeepsSettings.refl _ s with timing := fun h => absurd rfl (h sdi) }
  | disable timeout hlow hhigh =>
    obtain ⟨t, contact, n, l, ht, heq⟩ := disableContact_repoints s
    rw [heq]
    exact { KeepsSettings.refl _ s with pointer := fun h => absurd rfl (h sdi) }
  | pointerSettings enable timeout => exact { KeepsSettings.refl _ s with pointer := fun h => absurd rfl (h sdi) }
  | setNoteMask m => exact { KeepsSettings.refl _ s with mask := fun h => absurd rfl (h sdi) }
  | publishApplies hopen hscan =>
    obtain ⟨t, stack, result, n, contact, silence, cause, heq⟩ := applySet_writes (s.setCsu { s.csu with seq := s.csu.seq + 1 })
    rw [heq]
    exact { KeepsSettings.refl _ s with }
  | _ => exact { KeepsSettings.refl _ s with }

theorem softResetEffect_keepsSettings (c : Instr) (s : State) : KeepsSettings c s (softResetEffect s) := by
  rw [softResetEffect_eq]
  exact { KeepsSettings.refl c s with }

theorem Happens.keepsSettings (hu : Happens s c u) : KeepsSettings c s u := by
  cases hu with
  | nothing c => exact .refl c s
  | port hp =>
    obtain ⟨x, sdo, rfl, hmask, -, hselect, hreset⟩ := hp.shape
    exact { KeepsSettings.refl c s with mask := fun _ => hmask, select := hselect, resetLine := fun _ => hreset }
  | pointer hp =>
    obtain ⟨t, r, contact, n, link, range, cause, owed, -, -, rfl⟩ := hp.shape
    exact { KeepsSettings.refl c s with }
  | scan hp =>
    obtain ⟨hhp, -, hguard, -, hsettings, -, htiming, hline⟩ := hp.keeps
    exact ⟨fun _ _ => hguard.1, fun _ => hguard.2, fun _ => hline, fun _ => htiming, fun _ => hsettings, fun _ => by rw [hhp],
      fun _ _ => by rw [hhp], fun _ _ => by rw [hhp]⟩
  | request k sdi b f hclk hf hk hj => exact { (owner_event k f.params s).keepsSettings sdi with }
  | resetAssert =>
    rw [resetAsserted_eq, blocksReset_eq]
    exact { KeepsSettings.refl _ s with resetLine := fun h => absurd rfl h }
  | guardLine level => exact { KeepsSettings.refl _ s with guardLine := fun h => absurd rfl (h level) }
  | fallbackLine level => exact { KeepsSettings.refl _ s with fallbackLine := fun h => absurd rfl (h level) }

theorem KeepsSettings.trans {t : State} (h : KeepsSettings c s t) (h' : KeepsSettings c t u) : KeepsSettings c s u where
  guardEnable := fun h1 h2 => (h'.guardEnable h1 h2).trans (h.guardEnable h1 h2)
  guardLine := fun h1 => (h'.guardLine h1).trans (h.guardLine h1)
  fallbackLine := fun h1 => (h'.fallbackLine h1).trans (h.fallbackLine h1)
  timing := fun h1 => ⟨(h'.timing h1).1.trans (h.timing h1).1, (h'.timing h1).2.trans (h.timing h1).2⟩
  pointer := fun h1 => ⟨(h'.pointer h1).1.trans (h.pointer h1).1, (h'.pointer h1).2.trans (h.pointer h1).2⟩
  mask := fun h1 => (h'.mask h1).trans (h.mask h1)
  select := fun h1 h2 => (h'.select h1 h2).trans (h.select h1 h2)
  resetLine := fun h1 h2 => (h'.resetLine h1 h2).trans (h.resetLine h1 h2)

end Settings

/-- Settles O20: a due soft reset keeps every setting, and every happening but its own event does. -/
theorem settingsChangeOnlyByTheirEvents : Obligations.SettingsChangeOnlyByTheirEvents := by
  intro c s t hc hexec
  obtain ⟨u, hu, rfl⟩ := exec_happens hc hexec
  have hsettled : KeepsSettings c s s.settled := by
    rcases s.settled_cases with ⟨-, heq⟩ | ⟨-, heq⟩ <;> rw [heq]
    · exact .refl c s
    · exact softResetEffect_keepsSettings c s
  obtain ⟨hguardEnable, hguardLine, hfallback, htiming, hpointer, hmask, hselect, hreset⟩ := hsettled.trans hu.keepsSettings
  exact ⟨hguardEnable, hguardLine, hfallback, htiming, hpointer, hmask, hselect, hreset⟩

/-! ### The fault flags (R139, R176) -/

/-- The six fault flags that are set stay set. -/
def KeepsFaults (s t : State) : Prop :=
  s.hp.KeepsFaults t.hp ∧ (s.pu.linkFault = true → t.pu.linkFault = true) ∧ (s.pu.rangeFault = true → t.pu.rangeFault = true)

section Faults
variable {s u : State} {c : Instr}

theorem KeepsFaults.of_eq (hhp : u.hp = s.hp) (hpu : u.pu.linkFault = s.pu.linkFault ∧ u.pu.rangeFault = s.pu.rangeFault) :
    KeepsFaults s u := by
  refine ⟨hhp ▸ .refl s.hp, ?_, ?_⟩
  · rw [hpu.1]; exact id
  · rw [hpu.2]; exact id

theorem OwnerEvent.keepsFaults {k : RequestKind} (hu : OwnerEvent s k u) (hk : k ≠ .readStatus) : KeepsFaults s u := by
  cases hu with
  | readStatus => exact absurd rfl hk
  | publishApplies hopen hscan =>
    obtain ⟨t, stack, result, n, contact, silence, cause, heq⟩ := applySet_writes (s.setCsu { s.csu with seq := s.csu.seq + 1 })
    rw [heq]
    exact .of_eq rfl ⟨rfl, rfl⟩
  | disable timeout hlow hhigh =>
    obtain ⟨t, contact, n, l, ht, heq⟩ := disableContact_repoints s
    rw [heq]
    exact .of_eq rfl ⟨rfl, rfl⟩
  | setNoteMask m => exact ⟨.refl _, id, id⟩
  | _ => exact .of_eq rfl ⟨rfl, rfl⟩

theorem Happens.keepsFaults (hu : Happens s c u) (hreset : c ≠ .resetAssert) (hstatus : ∀ sdi, c ≠ .readStatus sdi) :
    KeepsFaults s u := by
  cases hu with
  | port hp =>
    obtain ⟨x, sdo, rfl, -, hfaults, -⟩ := hp.shape
    exact ⟨hfaults, id, id⟩
  | pointer hp =>
    obtain ⟨t, r, contact, n, link, range, cause, owed, hlink, hrange, rfl⟩ := hp.shape
    exact ⟨.refl _, hlink, hrange⟩
  | scan hp => exact .of_eq hp.keeps.hp hp.keeps.faults
  | request k sdi b f hclk hf hk hj =>
    exact (owner_event k f.params s).keepsFaults fun hk => hstatus sdi (by rw [hk]; rfl)
  | resetAssert => exact absurd rfl hreset
  | _ => exact .of_eq rfl ⟨rfl, rfl⟩

end Faults

/-- Settles O21: no happening but READ STATUS and the RESET line clears a fault flag. -/
theorem faultFlagsAreSticky : Obligations.FaultFlagsAreSticky := by
  intro c s t hc hreset hstatus hd hexec
  obtain ⟨u, hu, rfl⟩ := exec_happens hc hexec
  rw [State.settled_of_not_due hd] at hu
  obtain ⟨⟨hcut, hcheck, hlength, hunknown⟩, hlink, hrange⟩ := hu.keepsFaults hreset hstatus
  exact ⟨hcut, hcheck, hlength, hunknown, hlink, hrange⟩

/-! ### The sequence number and the outcome (R43, R62, R63) -/

/-- What an event does to the sequence number and the outcome record; outcome-unread is cleared by a READ OUTCOME that is received. -/
structure CsuMove (c : Instr) (received : Prop) (a b : Csu) : Prop where
  seq : b.seq = a.seq ∨ ((∃ sdi, c = .publish sdi) ∧ b.seq = a.seq + 1)
  outcome : b.outcome ≠ a.outcome → b.unread = true
  unread : a.unread = true → b.unread = false → (∃ sdi, c = .readOutcome sdi) ∧ received

section Outcome
variable {s u : State} {c : Instr} {received : Prop}

theorem CsuMove.of_kept {a b : Csu} (hseq : b.seq = a.seq) (houtcome : b.outcome = a.outcome) (hunread : b.unread = a.unread) :
    CsuMove c received a b :=
  ⟨.inl hseq, fun h => absurd houtcome h, fun h h' => by simp [hunread, h] at h'⟩

theorem csuMove_close (a : Csu) (result : SetResult) : CsuMove c received a (a.close result) :=
  ⟨.inl rfl, fun _ => rfl, fun _ h => by cases h⟩

theorem csuMove_emptied (a : Csu) : CsuMove c received a a.emptied := by
  unfold Csu.emptied
  split
  · exact csuMove_close a .discarded
  · exact .of_kept rfl rfl rfl

theorem OwnerEvent.csuMove {k : RequestKind} (hu : OwnerEvent s k u) (sdi : SdiBits) (hreceived : received) :
    CsuMove (k.row sdi) received s.csu u.csu := by
  cases hu with
  | publishWaits hopen hscan => exact ⟨.inr ⟨⟨sdi, rfl⟩, rfl⟩, fun h => absurd rfl h, fun h h' => by simp [h] at h'⟩
  | publishApplies hopen hscan =>
    obtain ⟨t, stack, result, n, contact, silence, cause, heq⟩ := applySet_writes (s.setCsu { s.csu with seq := s.csu.seq + 1 })
    rw [heq]
    exact ⟨.inr ⟨⟨sdi, rfl⟩, rfl⟩, fun _ => rfl, fun _ h => by cases h⟩
  | withdraw hpending => exact csuMove_close _ _
  | readOutcome => exact ⟨.inl rfl, fun h => absurd rfl h, fun _ _ => ⟨⟨sdi, rfl⟩, hreceived⟩⟩
  | disable timeout hlow hhigh =>
    obtain ⟨t, contact, n, l, ht, heq⟩ := disableContact_repoints s
    rw [heq]
    exact .of_kept rfl rfl rfl
  | _ => exact .of_kept rfl rfl rfl

theorem Happens.csuMove (hu : Happens s c u) : CsuMove c (∃ f, s.hp.trans = .receiving f) s.csu u.csu := by
  cases hu with
  | port hp =>
    obtain ⟨x, sdo, rfl, -⟩ := hp.shape
    exact .of_kept rfl rfl rfl
  | pointer hp =>
    obtain ⟨t, r, contact, n, link, range, cause, owed, -, -, rfl⟩ := hp.shape
    exact .of_kept rfl rfl rfl
  | scan hp =>
    rcases hp.keeps.csu with heq | ⟨result, heq⟩ <;> rw [heq]
    · exact .of_kept rfl rfl rfl
    · exact csuMove_close _ _
  | request k sdi b f hclk hf hk hj => exact (owner_event k f.params s).csuMove sdi ⟨f, hf⟩
  | resetAssert =>
    rw [resetAsserted_eq, blocksReset_eq]
    exact csuMove_emptied _
  | _ => exact .of_kept rfl rfl rfl

theorem softResetEffect_csu (s : State) : (softResetEffect s).csu = s.csu.emptied := by
  rw [softResetEffect_eq]
  rfl

/-- A due soft reset finds no request received (R180). -/
theorem PortLaw.not_receiving_of_due (h : PortLaw s.hp) (hd : s.hp.softResetDue = true) :
    ¬∃ f, (softResetEffect s).hp.trans = .receiving f := by
  obtain ⟨-, -, -, -, hdue, -⟩ := h
  have htrans : (softResetEffect s).hp.trans = s.hp.trans := by rw [softResetEffect_eq]; rfl
  rw [htrans]
  rcases hdue hd with he | he | he <;> simp [he]

/-- A due soft reset and then a happening that is no request. -/
theorem CsuMove.trans {a b d : Csu} (h : CsuMove c False a b) (h' : CsuMove c received b d) (hr : ¬received)
    (hseq : b.seq = a.seq) : CsuMove c received a d where
  seq := hseq ▸ h'.seq
  outcome := fun hne => by
    by_cases hd : d.outcome = b.outcome
    · by_contra hnot
      have hb := h.outcome (hd ▸ hne)
      exact hr (h'.unread hb (by simpa using hnot)).2
    · exact h'.outcome hd
  unread := fun ha hd => by
    by_cases hb : b.unread = true
    · exact h'.unread hb hd
    · exact (h.unread ha (by simpa using hb)).2.elim

end Outcome

/-- Settles O18: the soft reset that is due closes a pending set, and the happening moves CSU's record by its own requests. -/
theorem sequenceNumberAndOutcomeWrites : Obligations.SequenceNumberAndOutcomeWrites := by
  intro c s t hport hexec
  refine ⟨?_, fun hc => ?_⟩
  · rintro ⟨select, guard, fallback, rfl⟩
    rw [done_eq_next.1 hexec]
    exact ⟨rfl, rfl, rfl⟩
  · obtain ⟨u, hu, rfl⟩ := exec_happens hc hexec
    have hmove : CsuMove c (∃ f, s.settled.hp.trans = .receiving f) s.csu u.csu := by
      rcases s.settled_cases with ⟨-, heq⟩ | ⟨hd, heq⟩ <;> rw [heq] at hu ⊢
      · exact hu.csuMove
      · have hcsu := softResetEffect_csu s
        have hfirst : CsuMove c False s.csu (softResetEffect s).csu := hcsu ▸ csuMove_emptied s.csu
        exact hfirst.trans hu.csuMove (hport.not_receiving_of_due hd) (by rw [hcsu, Csu.emptied_seq])
    exact ⟨hmove.seq, hmove.outcome, fun h h' => (hmove.unread h h').1⟩

/-! ### The frame counter and the fallback-effective flag (R94, R95, R158) -/

section Frame
variable {s u : State} {c : Instr}

/-- An apply point is no matter of SE's record. -/
theorem applyIfPending_se (s : State) : (applyIfPending s).se = s.se := by
  unfold applyIfPending
  split
  · obtain ⟨t, stack, result, n, contact, silence, cause, heq⟩ := applySet_writes s
    rw [heq]
    rfl
  · rfl

theorem frameOpened_se (order : FrameOrder) (frame : BitVec 6) (s : State) : (frameOpened order frame s).se.frame = frame
    ∧ (frameOpened order frame s).se.fallbackEffective = decide (s.se.fallbackLine = .asserted) := by
  cases order with
  | csuFirst => exact ⟨rfl, rfl⟩
  | puFirst =>
    obtain ⟨v, ⟨t, contact, n, l, ht, rfl⟩, heq⟩ := takeTick_repoints (s.beginFrame frame)
    rw [frameOpened, heq]
    exact ⟨rfl, rfl⟩

/-- The counter and the flag as they stand. -/
def KeepsFrame (s t : State) : Prop := t.se.frame = s.se.frame ∧ t.se.fallbackEffective = s.se.fallbackEffective

/-- SE's counter after a frame start at a place where one falls (R94). -/
theorem nextFrame_eq {e : Se} {frame : BitVec 6} (h : e.nextFrame = some frame) :
    frame = if e.place = .outside then e.frame else e.frame + 1 := by
  unfold Se.nextFrame at h
  cases hp : e.place with
  | outside => simp_all
  | before y => simp [hp] at h
  | inLine y => simp [hp] at h
  | retrace k =>
    simp only [hp] at h
    split at h
    · injection h with h
      rw [if_neg (by simp)]
      exact h.symm
    · cases h

theorem ScanEvent.frame (hu : ScanEvent s c u) : KeepsFrame s u ∨ (∃ order, c = .frameStart order) ∧ s.se.scan = .running
    ∧ (u.se.frame = if s.se.place = .outside then s.se.frame else s.se.frame + 1)
    ∧ u.se.fallbackEffective = decide (s.se.fallbackLine = .asserted) := by
  cases hu with
  | frameStart order frame hscan hf =>
    obtain ⟨hframe, hflag⟩ := frameOpened_se order frame s
    exact .inr ⟨⟨order, rfl⟩, hscan, by rw [applyIfPending_se, hframe, nextFrame_eq hf], by rw [applyIfPending_se, hflag]⟩
  | stopPoint hscan hat => exact .inl (by rw [KeepsFrame, applyIfPending_se]; exact ⟨rfl, rfl⟩)
  | _ => exact .inl ⟨rfl, rfl⟩

theorem OwnerEvent.keepsFrame {k : RequestKind} (hu : OwnerEvent s k u) :
    k = .startScan ∧ u.se.frame = 0 ∧ u.se.fallbackEffective = s.se.fallbackEffective ∨ KeepsFrame s u := by
  cases hu with
  | startScan hscan hvalid => exact .inl ⟨rfl, rfl, rfl⟩
  | publishApplies hopen hscan =>
    obtain ⟨t, stack, result, n, contact, silence, cause, heq⟩ := applySet_writes (s.setCsu { s.csu with seq := s.csu.seq + 1 })
    rw [heq]
    exact .inr ⟨rfl, rfl⟩
  | disable timeout hlow hhigh =>
    obtain ⟨t, contact, n, l, ht, heq⟩ := disableContact_repoints s
    rw [heq]
    exact .inr ⟨rfl, rfl⟩
  | _ => exact .inr ⟨rfl, rfl⟩

/-- Everything a happening does to the counter and the flag. -/
theorem Happens.frame (hu : Happens s c u) :
    KeepsFrame s u
      ∨ (c = .resetAssert ∧ u.se.frame = 0 ∧ u.se.fallbackEffective = false)
      ∨ ((∃ sdi, c = .startScan sdi) ∧ u.se.frame = 0 ∧ u.se.fallbackEffective = s.se.fallbackEffective)
      ∨ ((∃ order, c = .frameStart order) ∧ s.se.scan = .running
        ∧ (u.se.frame = if s.se.place = .outside then s.se.frame else s.se.frame + 1)
        ∧ u.se.fallbackEffective = decide (s.se.fallbackLine = .asserted)) := by
  cases hu with
  | port hp =>
    obtain ⟨x, sdo, rfl, -⟩ := hp.shape
    exact .inl ⟨rfl, rfl⟩
  | pointer hp =>
    obtain ⟨t, r, contact, n, link, range, cause, owed, -, -, rfl⟩ := hp.shape
    exact .inl ⟨rfl, rfl⟩
  | scan hp =>
    rcases hp.frame with h | h
    · exact .inl h
    · exact .inr (.inr (.inr h))
  | request k sdi b f hclk hf hk hj =>
    rcases (owner_event k f.params s).keepsFrame with ⟨rfl, h⟩ | h
    · exact .inr (.inr (.inl ⟨⟨sdi, rfl⟩, h⟩))
    · exact .inl h
  | resetAssert =>
    rw [resetAsserted_eq, blocksReset_eq]
    exact .inr (.inl ⟨rfl, rfl, rfl⟩)
  | _ => exact .inl ⟨rfl, rfl⟩

/-- FRAME_START while RUNNING, with no soft reset due: the frame opened, and CSU's apply point; refused where no frame start falls. -/
theorem execFrameStart_of_running {order : FrameOrder} (hd : s.hp.softResetDue = false) (hscan : s.se.scan = .running) :
    execFrameStart order s = match s.se.nextFrame with
      | none => .refused .happeningOutOfPlace
      | some frame => done (applyIfPending (frameOpened order frame s)) := by
  simp only [execFrameStart, State.settled_of_not_due hd, hscan]
  cases s.se.nextFrame with
  | none => rfl
  | some frame => cases order <;> rfl

/-- A frame start that is taken (R89, R94, R95). -/
theorem frame_of_frameStart {order : FrameOrder} {t : State} (hd : s.hp.softResetDue = false) (hscan : s.se.scan = .running)
    (h : exec (.frameStart order) s = .next t) :
    (t.se.frame = if s.se.place = .outside then s.se.frame else s.se.frame + 1)
      ∧ t.se.fallbackEffective = decide (s.se.fallbackLine = .asserted) := by
  have hexec := (execFrameStart_of_running (order := order) hd hscan).symm.trans h
  cases hf : s.se.nextFrame with
  | none => rw [hf] at hexec; cases hexec
  | some frame =>
    rw [hf] at hexec
    obtain ⟨hframe, hflag⟩ := frameOpened_se order frame s
    rw [done_eq_next.1 hexec, State.judgeNote_se, applyIfPending_se, hframe, hflag]
    exact ⟨nextFrame_eq hf, rfl⟩

/-- The resets clear the counter and the flag (R96, R97, R98). -/
theorem frame_of_reset {t : State} (hc : ¬c.isPowerOn) (h : exec c s = .next t)
    (hreset : c = .resetAssert ∨ s.hp.softResetDue = true) : t.se.frame = 0 ∧ t.se.fallbackEffective = false := by
  rcases hreset with rfl | hd
  · have ht : t = (resetAsserted s.settled).judgeNote := done_eq_next.1 h
    rw [ht, resetAsserted_eq, blocksReset_eq]
    exact ⟨rfl, rfl⟩
  · obtain ⟨u, hu, rfl⟩ := exec_happens hc h
    have hse : s.settled.se = s.se.halted := by
      rw [State.settled_of_due hd, softResetEffect_eq]
      rfl
    rcases hu.frame with ⟨hframe, hflag⟩ | ⟨-, hframe, hflag⟩ | ⟨-, hframe, hflag⟩ | ⟨-, hscan, -⟩
    · exact ⟨by rw [State.judgeNote_se, hframe, hse]; rfl, by rw [State.judgeNote_se, hflag, hse]; rfl⟩
    · exact ⟨hframe, hflag⟩
    · exact ⟨hframe, by rw [State.judgeNote_se, hflag, hse]; rfl⟩
    · rw [hse] at hscan
      cases hscan

/-- START SCAN that is presented (R86, R94). -/
theorem frame_of_startScan {sdi : SdiBits} {p : List Byte} {t : State} (hp : Presented .startScan p sdi s)
    (h : exec (.startScan sdi) s = .next t) :
    t.se.frame = if s.se.scan = .stopped ∧ s.se.timingValid = true then 0 else s.se.frame := by
  have hexec := (exec_row_of_presented hp).symm.trans h
  injection hexec with ht
  rw [← ht]
  show (startScanRequest p s).state.se.frame = _
  unfold startScanRequest
  split <;> rfl

end Frame

/-- Settles O19: the resets, the frame start and START SCAN are the events that write the counter and the flag. -/
theorem frameCounterAndFallbackFlagTables : Obligations.FrameCounterAndFallbackFlagTables := by
  intro c s t hexec
  have hpower (hc : c.isPowerOn) : t.se.frame = 0 ∧ t.se.fallbackEffective = false := by
    obtain ⟨select, guard, fallback, rfl⟩ := hc
    rw [done_eq_next.1 hexec]
    exact ⟨rfl, rfl⟩
  have hreset (h : c = .resetAssert ∨ s.hp.softResetDue = true) : t.se.frame = 0 ∧ t.se.fallbackEffective = false := by
    by_cases hc : c.isPowerOn
    · exact hpower hc
    · exact frame_of_reset hc hexec h
  have hevent (hd : s.hp.softResetDue = false) (hc : ¬c.isPowerOn) (hr : c ≠ .resetAssert)
      (hf : (∀ order, c ≠ .frameStart order) ∨ s.se.scan = .stopped) :
      t.se.fallbackEffective = s.se.fallbackEffective
        ∧ (t.se.frame = s.se.frame ∨ (∃ sdi, c = .startScan sdi) ∧ t.se.frame = 0) := by
    obtain ⟨u, hu, rfl⟩ := exec_happens hc hexec
    rw [State.settled_of_not_due hd] at hu
    rcases hu.frame with ⟨hframe, hflag⟩ | ⟨hc', -⟩ | ⟨hc', hframe, hflag⟩ | ⟨⟨order, hc'⟩, hscan, -⟩
    · exact ⟨hflag, .inl hframe⟩
    · exact absurd hc' hr
    · exact ⟨hflag, .inr ⟨hc', hframe⟩⟩
    · rcases hf with hf | hf
      · exact absurd hc' (hf order)
      · rw [hf] at hscan; cases hscan
  refine ⟨fun hc => (hpower hc).1, fun hr => (hreset (.inl hr)).1, fun _ hd => (hreset (.inr hd)).1, fun hd sdi p hc hp => ?_,
    fun hd sdi hc => ?_, fun hd order hc hscan => ?_, fun hd hc => ?_, fun hd hc hr hs hf => ?_, fun h => ?_,
    fun hd order hc hscan => ?_, fun hd hc hr hf => (hevent hd hc hr hf).1, ?_⟩
  · subst hc
    exact frame_of_startScan hp hexec
  · subst hc
    rcases (hevent hd (by rintro ⟨_, _, _, h⟩; cases h) (by simp) (.inl (by simp))).2 with h | ⟨-, h⟩
    · exact .inl h
    · exact .inr h
  · subst hc
    exact (frame_of_frameStart hd hscan hexec).1
  · subst hc
    rcases (hevent hd (by rintro ⟨_, _, _, h⟩; cases h) (by simp) (.inl (by simp))).2 with h | ⟨⟨sdi, h⟩, -⟩
    · exact h
    · cases h
  · rcases (hevent hd hc hr hf).2 with h | ⟨⟨sdi, h⟩, -⟩
    · exact h
    · exact absurd h (hs sdi)
  · rcases h with hc | h
    · exact (hpower hc).2
    · exact (hreset h).2
  · subst hc
    exact (frame_of_frameStart hd hscan hexec).2
  · rw [← BitVec.ofNat_toNat]
    rfl

end Sys2Proof.Machine
end

section
/-! PROOFS. No command reads or changes the queue: every operation, and so every command, does the same whatever waits (log entry 1). -/

namespace Sys2Proof.Machine
open Sys2Proof

-- One theorem after another, as in the tests: each thread of its own takes a stack and a heap of the checker's memory.
set_option Elab.async false

/-- An answer with another queue in its state. -/
def Answer.setPending (a : Answer) (q : List Instr) : Answer := ⟨a.state.setPending q, a.code, a.bytes⟩

/-- An outcome with another queue in its next state. -/
def requeue (q : List Instr) : Host.Outcome State Fault Refusal → Host.Outcome State Fault Refusal
  | .next t => .next (t.setPending q)
  | .fault r => .fault r
  | .refused r => .refused r

section Queue
variable (s : State) (q : List Instr)

theorem State.setPending_ite (p : Prop) [Decidable p] (a b : State) :
    (if p then a else b).setPending q = if p then a.setPending q else b.setPending q := apply_ite (·.setPending q) p a b

theorem Answer.setPending_ite (p : Prop) [Decidable p] (a b : Answer) :
    (if p then a else b).setPending q = if p then a.setPending q else b.setPending q := apply_ite (·.setPending q) p a b

theorem requeue_ite (p : Prop) [Decidable p] (a b : Host.Outcome State Fault Refusal) :
    requeue q (if p then a else b) = if p then requeue q a else requeue q b := apply_ite (requeue q) p a b

/-! ### The shared operations -/

theorem cancelCapture_setPending (cause : CancelCause) :
    cancelCapture cause (s.setPending q) = (cancelCapture cause s).setPending q := by
  simp only [cancelCapture, State.setPending_pu]
  split <;> rfl

theorem takeNotice_setPending (dropped : List (Fin 32)) :
    takeNotice dropped (s.setPending q) = (takeNotice dropped s).setPending q := by
  simp only [takeNotice, State.setPending_pu, State.setPending_rgt, cancelCapture_setPending]
  split
  · split <;> rfl
  · rfl

theorem tickSilence_setPending : tickSilence (s.setPending q) = (tickSilence s).setPending q := by
  simp only [tickSilence, State.setPending_pu, cancelCapture_setPending, State.setPending_ite]
  rfl

theorem tickFallback_setPending : tickFallback (s.setPending q) = (tickFallback s).setPending q := by
  simp only [tickFallback, State.setPending_pu, State.setPending_rgt, State.setPending_se, cancelCapture_setPending]
  split
  · rw [State.setPending_ite]
  · rfl

theorem takeTick_setPending : takeTick (s.setPending q) = (takeTick s).setPending q := by
  simp only [takeTick, tickSilence_setPending, tickFallback_setPending]
  rfl

theorem hitTest_setPending (p : Point) : hitTest (s.setPending q) p = hitTest s p :=
  hitTest_congr (s := s) (t := s.setPending q) rfl rfl rfl rfl p

theorem takeContact_setPending (p : Point) : takeContact p (s.setPending q) = (takeContact p s).setPending q := by
  simp only [takeContact, State.setPending_pu, State.setPending_rgt, hitTest_setPending]
  split
  · split <;> rfl
  · rfl
  · rfl

theorem takeLift_setPending (p : Point) : takeLift p (s.setPending q) = (takeLift p s).setPending q := by
  simp only [takeLift, State.setPending_pu, State.setPending_rgt]
  split <;> rfl

theorem reportEffect_setPending (v : ReportVerdict) : reportEffect v (s.setPending q) = (reportEffect v s).setPending q := by
  cases v with
  | dropped | link | range => rfl
  | taken k p =>
    cases k with
    | contact => exact takeContact_setPending (s.setPu { s.pu with receiver := .waiting }) q p
    | lift => exact takeLift_setPending (s.setPu { s.pu with receiver := .waiting }) q p

theorem applySet_setPending : applySet (s.setPending q) = (applySet s).setPending q := by
  have hworking : (s.setPending q).working = s.working := rfl
  simp only [applySet, State.setPending_rgt, State.setPending_se, State.setPending_csu, hworking]
  split
  · next w hw =>
    exact takeNotice_setPending (((s.setRgt { s.rgt with slots := w.slots, stack := w.stack }).setCsu
      (s.csu.close .applied)).setFree (if w.tookFree then w.free + 1 else w.free)) q w.dropped
  · rfl

theorem applyIfPending_setPending : applyIfPending (s.setPending q) = (applyIfPending s).setPending q := by
  simp only [applyIfPending, State.setPending_csu, applySet_setPending, State.setPending_ite]

theorem softResetEffect_setPending : softResetEffect (s.setPending q) = (softResetEffect s).setPending q := by
  rw [softResetEffect_eq, softResetEffect_eq]
  rfl

theorem settled_setPending : (s.setPending q).settled = s.settled.setPending q := by
  simp only [State.settled, State.setPending_hp, softResetEffect_setPending, State.setPending_ite]

theorem resetAsserted_setPending : resetAsserted (s.setPending q) = (resetAsserted s).setPending q := by
  rw [resetAsserted_eq, resetAsserted_eq, blocksReset_eq, blocksReset_eq]
  rfl

/-! ### The owners -/

theorem stageChange_setPending (target : Handle) (payload : Option Operation) (lockChecked : Bool) :
    stageChange target payload lockChecked (s.setPending q) = (stageChange target payload lockChecked s).setPending q := by
  simp only [stageChange, State.setPending_csu, State.setPending_rgt]
  split
  · rfl
  · split
    · rfl
    · rw [Answer.setPending_ite, Answer.setPending_ite]
      rfl

theorem createRequest_setPending (p : List Byte) : createRequest p (s.setPending q) = (createRequest p s).setPending q := by
  simp only [createRequest, State.setPending_csu, State.setPending_rgt]
  split
  · rfl
  · split
    · rfl
    · split <;> rfl

theorem publishRequest_setPending (p : List Byte) : publishRequest p (s.setPending q) = (publishRequest p s).setPending q := by
  have hnumbered := applySet_setPending (s.setCsu { s.csu with seq := s.csu.seq + 1 }) q
  rw [publishRequest, publishRequest, Answer.setPending_ite, Answer.setPending_ite]
  exact if_congr Iff.rfl rfl
    (if_congr Iff.rfl (congrArg (fun t : State => Answer.mk t .done [s.csu.seq + 1, 1]) hnumbered) rfl)

theorem disableContact_setPending : disableContact (s.setPending q) = (disableContact s).setPending q := by
  rw [disableContact, cancelCapture_setPending]
  rfl

theorem pointerSettingsRequest_setPending (p : List Byte) :
    pointerSettingsRequest p (s.setPending q) = (pointerSettingsRequest p s).setPending q := by
  unfold pointerSettingsRequest
  split
  · rfl
  · next enable timeout hread =>
    have hgiven : (if (s.setPending q).pu.enable = true ∧ enable = false then disableContact (s.setPending q) else s.setPending q)
        = (if s.pu.enable = true ∧ enable = false then disableContact s else s).setPending q := by
      rw [disableContact_setPending, State.setPending_ite]
      rfl
    exact congrArg (fun t : State => Answer.mk (t.setPu { t.pu with enable := enable, timeout := timeout }) .done []) hgiven

theorem owner_setPending (k : RequestKind) (p : List Byte) : k.owner p (s.setPending q) = (k.owner p s).setPending q := by
  cases k with
  | create => exact createRequest_setPending s q p
  | amend => exact stageChange_setPending s q _ _ _
  | retire => exact stageChange_setPending s q (readHandle p) (some .retire) true
  | restack => exact stageChange_setPending s q _ _ _
  | lock => exact stageChange_setPending s q (readHandle p) (some .lock) false
  | publish => exact publishRequest_setPending s q p
  | pointerSettings => exact pointerSettingsRequest_setPending s q p
  | readOutcome | readStack | guardOn | readTiming | readStatus | softReset => rfl
  | withdraw | discard | guardOff | startScan | probe | readRegion =>
    simp only [RequestKind.owner, withdrawRequest, discardRequest, guardOffRequest, startScanRequest, probeRequest,
      readRegionRequest, Answer.setPending_ite, hitTest_setPending]
    rfl
  | setTiming =>
    show setTimingRequest p (s.setPending q) = (setTimingRequest p s).setPending q
    rw [setTimingRequest, setTimingRequest, Answer.setPending_ite, Answer.setPending_ite]
    rfl
  | stopScan =>
    show stopScanRequest p (s.setPending q) = (stopScanRequest p s).setPending q
    unfold stopScanRequest
    rw [State.setPending_se]
    split <;> rfl
  | readTouch =>
    show readTouchRequest p (s.setPending q) = (readTouchRequest p s).setPending q
    rw [readTouchRequest, readTouchRequest, Answer.setPending_ite]
    refine if_congr Iff.rfl ?_ rfl
    rw [State.setPending_rgt]
    split <;> rfl
  | setNoteMask =>
    show setNoteMaskRequest p (s.setPending q) = (setNoteMaskRequest p s).setPending q
    unfold setNoteMaskRequest
    split <;> rfl

/-! ### The commands -/

/-- HP is clocked as it would be whatever waits, when the byte's event is. -/
theorem clock_setPending (sdi : SdiBits) {event event' : Byte → Host.Outcome State Fault Refusal}
    (h : ∀ b, event' b = requeue q (event b)) : (s.setPending q).clock sdi event' = requeue q (s.clock sdi event) := by
  unfold State.clock
  rw [requeue_ite, requeue_ite]
  refine if_congr Iff.rfl rfl (if_congr Iff.rfl rfl ?_)
  dsimp only
  rw [requeue_ite, requeue_ite, ← h]
  rfl

theorem takeRequest_setPending (k : RequestKind) (sdi : SdiBits) :
    takeRequest k sdi k.owner (s.setPending q) = requeue q (takeRequest k sdi k.owner s) := by
  unfold takeRequest
  refine clock_setPending s q sdi fun b => ?_
  rw [State.setPending_hp]
  split
  · next f hf =>
    rw [requeue_ite, requeue_ite]
    refine if_congr Iff.rfl (if_congr Iff.rfl ?_ rfl) rfl
    split
    · rfl
    · rw [owner_setPending]
      rfl
  all_goals rfl

theorem exec_row_setPending (k : RequestKind) (sdi : SdiBits) :
    exec (k.row sdi) (s.setPending q) = requeue q (exec (k.row sdi) s) := by
  rw [exec_row, exec_row, settled_setPending]
  exact takeRequest_setPending _ q k sdi

theorem execFramingFault_setPending (sdi : SdiBits) :
    execFramingFault sdi (s.setPending q) = requeue q (execFramingFault sdi s) := by
  simp only [execFramingFault, settled_setPending]
  refine clock_setPending _ q sdi fun b => ?_
  rw [State.setPending_hp]
  split
  · rw [requeue_ite]
    refine if_congr Iff.rfl ?_ rfl
    split <;> rfl
  all_goals rfl

theorem execRequestByteReceived_setPending (sdi : SdiBits) :
    execRequestByteReceived sdi (s.setPending q) = requeue q (execRequestByteReceived sdi s) := by
  simp only [execRequestByteReceived, settled_setPending]
  refine clock_setPending _ q sdi fun b => ?_
  rw [State.setPending_hp]
  split
  · rw [requeue_ite]
    rfl
  all_goals rfl

theorem execReplyByteShifted_setPending : execReplyByteShifted (s.setPending q) = requeue q (execReplyByteShifted s) := by
  simp only [execReplyByteShifted, settled_setPending]
  refine clock_setPending _ q _ fun b => ?_
  rw [State.setPending_hp]
  split
  · rfl
  · rw [requeue_ite]
    rfl
  all_goals rfl

theorem execReplyComplete_setPending : execReplyComplete (s.setPending q) = requeue q (execReplyComplete s) := by
  simp only [execReplyComplete, settled_setPending]
  refine clock_setPending _ q _ fun b => ?_
  rw [State.setPending_hp]
  split
  · rfl
  · rw [requeue_ite]
    rfl
  all_goals rfl

theorem execLines_setPending : execSelectFall (s.setPending q) = requeue q (execSelectFall s)
    ∧ execSelectRise (s.setPending q) = requeue q (execSelectRise s)
    ∧ execResetRelease (s.setPending q) = requeue q (execResetRelease s) := by
  simp only [execSelectFall, execSelectRise, execResetRelease, settled_setPending, requeue_ite]
  exact ⟨rfl, rfl, rfl⟩

theorem execFrameStart_setPending (order : FrameOrder) :
    execFrameStart order (s.setPending q) = requeue q (execFrameStart order s) := by
  simp only [execFrameStart, settled_setPending, State.setPending_se]
  split
  · rfl
  · rfl
  · split
    · rfl
    · next frame hframe =>
      cases order with
      | csuFirst => exact congrArg done (applyIfPending_setPending (s.settled.beginFrame frame) q)
      | puFirst =>
        have htick := takeTick_setPending (s.settled.beginFrame frame) q
        exact congrArg done ((congrArg applyIfPending htick).trans (applyIfPending_setPending _ q))

theorem execStopPoint_setPending : execStopPoint (s.setPending q) = requeue q (execStopPoint s) := by
  simp only [execStopPoint, settled_setPending, State.setPending_se]
  split
  · rfl
  · rfl
  · rw [requeue_ite]
    exact if_congr Iff.rfl (congrArg done (applyIfPending_setPending (scanEnded s.settled) q)) rfl

theorem execRetraceLine_setPending : execRetraceLine (s.setPending q) = requeue q (execRetraceLine s) := by
  simp only [execRetraceLine, settled_setPending, State.setPending_se, requeue_ite]
  refine if_congr Iff.rfl rfl ?_
  split
  · rw [requeue_ite]
    rfl
  all_goals rfl

theorem execLineStart_setPending : execLineStart (s.setPending q) = requeue q (execLineStart s) := by
  simp only [execLineStart, settled_setPending, State.setPending_se, requeue_ite]
  refine if_congr Iff.rfl rfl ?_
  split
  · rw [requeue_ite]
    rfl
  all_goals rfl

theorem execCellIssue_setPending (data : CellData) (n : Nat) :
    execCellIssue data n (s.setPending q) = requeue q (execCellIssue data n s) := by
  simp only [execCellIssue, settled_setPending, State.setPending_se, requeue_ite]
  refine if_congr Iff.rfl rfl ?_
  split
  · rw [requeue_ite]
    rfl
  all_goals rfl

theorem execLineEnd_setPending : execLineEnd (s.setPending q) = requeue q (execLineEnd s) := by
  simp only [execLineEnd, settled_setPending, State.setPending_se, requeue_ite]
  refine if_congr Iff.rfl rfl ?_
  split
  · rw [requeue_ite]
    rfl
  all_goals rfl

/-- The rows of a character. -/
theorem execCharacter_setPending (line : PrxBits) :
    execPointerCharacterKept line (s.setPending q) = requeue q (execPointerCharacterKept line s)
      ∧ execPointerLinkFault line (s.setPending q) = requeue q (execPointerLinkFault line s) := by
  simp only [execPointerCharacterKept, execPointerLinkFault, settled_setPending, State.setPending_pu]
  split
  · exact ⟨rfl, rfl⟩
  · next ch hch => cases s.settled.pu.receiver.on ch <;> exact ⟨rfl, rfl⟩

theorem onReport_setPending (line : PrxBits) {act act' : List Byte → Byte → Host.Outcome State Fault Refusal}
    (h : ∀ bytes check, act' bytes check = requeue q (act bytes check)) :
    onReport line (s.setPending q) act' = requeue q (onReport line s act) := by
  simp only [onReport, State.setPending_pu]
  split
  · rfl
  · split
    · exact h _ _
    · rfl
    · rfl

theorem completeReport_setPending (k : ReportKind) (line : PrxBits) :
    completeReport k line (s.setPending q) = requeue q (completeReport k line s) := by
  refine onReport_setPending s q line fun bytes check => ?_
  rw [requeue_ite]
  exact if_congr Iff.rfl (congrArg done (reportEffect_setPending s q _)) rfl

theorem execReportDiscarded_setPending (line : PrxBits) :
    execReportDiscarded line (s.setPending q) = requeue q (execReportDiscarded line s) := by
  simp only [execReportDiscarded, settled_setPending]
  refine onReport_setPending _ q line fun bytes check => ?_
  rw [requeue_ite]
  exact if_congr Iff.rfl (congrArg done (reportEffect_setPending _ q _)) rfl

theorem execTicks_setPending : execPointerTick (s.setPending q) = requeue q (execPointerTick s)
    ∧ execContactTimeout (s.setPending q) = requeue q (execContactTimeout s) := by
  simp only [execPointerTick, execContactTimeout, settled_setPending, takeTick_setPending, requeue_ite]
  exact ⟨rfl, rfl⟩

/-- Every command does the same whatever waits. -/
theorem exec_setPending (c : Instr) : exec c (s.setPending q) = requeue q (exec c s) := by
  cases c with
  | powerOn select guard fallback => rfl
  | resetAssert =>
    show execResetAssert (s.setPending q) = requeue q (execResetAssert s)
    have h : resetAsserted (s.setPending q).settled = (resetAsserted s.settled).setPending q := by
      rw [settled_setPending, resetAsserted_setPending]
    exact congrArg done h
  | softResetAction => exact congrArg done (settled_setPending s q)
  | guardLineChange level =>
    simp only [exec, execGuardLineChange, settled_setPending]
    rfl
  | fallbackLineChange level =>
    simp only [exec, execFallbackLineChange, settled_setPending]
    rfl
  | selectFall => exact (execLines_setPending s q).1
  | selectRise => exact (execLines_setPending s q).2.1
  | resetRelease => exact (execLines_setPending s q).2.2
  | replyComplete => exact execReplyComplete_setPending s q
  | framingFault sdi => exact execFramingFault_setPending s q sdi
  | requestByteReceived sdi => exact execRequestByteReceived_setPending s q sdi
  | replyByteShifted => exact execReplyByteShifted_setPending s q
  | frameStart order => exact execFrameStart_setPending s q order
  | pointerTick => exact (execTicks_setPending s q).1
  | contactTimeout => exact (execTicks_setPending s q).2
  | lineStart => exact execLineStart_setPending s q
  | cellIssue data n => exact execCellIssue_setPending s q data n
  | lineEnd => exact execLineEnd_setPending s q
  | retraceLine => exact execRetraceLine_setPending s q
  | stopPoint => exact execStopPoint_setPending s q
  | pointerLinkFault line => exact (execCharacter_setPending s q line).2
  | pointerCharacterKept line => exact (execCharacter_setPending s q line).1
  | reportDiscarded line => exact execReportDiscarded_setPending s q line
  | contact line =>
    rw [exec, exec, execContact, execContact, settled_setPending]
    exact completeReport_setPending _ q .contact line
  | lift line =>
    rw [exec, exec, execLift, execLift, settled_setPending]
    exact completeReport_setPending _ q .lift line
  | create sdi => exact exec_row_setPending s q .create sdi
  | amend sdi => exact exec_row_setPending s q .amend sdi
  | retire sdi => exact exec_row_setPending s q .retire sdi
  | restack sdi => exact exec_row_setPending s q .restack sdi
  | lock sdi => exact exec_row_setPending s q .lock sdi
  | publish sdi => exact exec_row_setPending s q .publish sdi
  | withdraw sdi => exact exec_row_setPending s q .withdraw sdi
  | discard sdi => exact exec_row_setPending s q .discard sdi
  | readOutcome sdi => exact exec_row_setPending s q .readOutcome sdi
  | readRegion sdi => exact exec_row_setPending s q .readRegion sdi
  | readStack sdi => exact exec_row_setPending s q .readStack sdi
  | guardOn sdi => exact exec_row_setPending s q .guardOn sdi
  | guardOff sdi => exact exec_row_setPending s q .guardOff sdi
  | setTiming sdi => exact exec_row_setPending s q .setTiming sdi
  | readTiming sdi => exact exec_row_setPending s q .readTiming sdi
  | startScan sdi => exact exec_row_setPending s q .startScan sdi
  | stopScan sdi => exact exec_row_setPending s q .stopScan sdi
  | pointerSettings sdi => exact exec_row_setPending s q .pointerSettings sdi
  | readTouch sdi => exact exec_row_setPending s q .readTouch sdi
  | probe sdi => exact exec_row_setPending s q .probe sdi
  | readStatus sdi => exact exec_row_setPending s q .readStatus sdi
  | setNoteMask sdi => exact exec_row_setPending s q .setNoteMask sdi
  | softReset sdi => exact exec_row_setPending s q .softReset sdi

end Queue

/-- Settles O2: a command does the same whatever waits; with the queue that waits now, its next state has that queue. -/
theorem commandsIgnoreTheQueue : Obligations.CommandsIgnoreTheQueue := by
  intro c s t q hexec
  have hqueue (p : List Instr) : exec c (s.setPending p) = .next (t.setPending p) := by rw [exec_setPending, hexec]; rfl
  refine ⟨?_, hqueue q⟩
  have hsame : Host.Outcome.next t = .next (t.setPending s.pending) := hexec.symm.trans (hqueue s.pending)
  injection hsame with ht
  have hpending : t.pending = (t.setPending s.pending).pending := congrArg State.pending ht
  exact hpending

end Sys2Proof.Machine
end

section
/-! PROOFS. Power-on, the resets, the board's lines, and the edges and bytes of the host port. -/

namespace Sys2Proof.Machine
open Sys2Proof

-- One theorem after another, as in the tests: each thread of its own takes a stack and a heap of the checker's memory.
set_option Elab.async false

/-! ### Power-on and the resets (R24, R25, R26) -/

/-- Settles O39: the state of every block is written out in the power-on state. -/
theorem powerOnGivesTheResetState : Obligations.PowerOnGivesTheResetState := fun _ _ _ _ => rfl

/-- The outcome and its flag after a reset (R65, R66). -/
theorem emptied_outcome (a : Csu) :
    (a.setState = .pending → a.emptied.outcome = ⟨a.seq, .discarded, a.changes.length⟩ ∧ a.emptied.unread = true)
      ∧ (a.setState = .opened → a.emptied.outcome = a.outcome ∧ a.emptied.unread = a.unread) := by
  unfold Csu.emptied
  split
  · next hp => exact ⟨fun _ => ⟨rfl, rfl⟩, fun ho => by simp [hp] at ho⟩
  · next hp => exact ⟨fun h => absurd h hp, fun _ => ⟨rfl, rfl⟩⟩

/-- The reservations released, in a lawful table (R49): every RESERVED slot is the list's. -/
theorem release_of_laws {s : State} (h : s.Laws) (i : Fin 32) :
    slotAt (releaseReservations s.rgt.slots s.csu.changes) i =
      if (slotAt s.rgt.slots i).state = .reserved then (slotAt s.rgt.slots i).freed else slotAt s.rgt.slots i := by
  obtain ⟨-, -, hreserved, -⟩ := h.table.list
  rw [slotAt_releaseReservations]
  by_cases hr : (slotAt s.rgt.slots i).state = .reserved
  · obtain ⟨c, hc, hci⟩ := (hreserved i).1 hr
    rw [if_pos ⟨hr, List.any_eq_true.2 ⟨c, hc, hci⟩⟩, if_pos hr]
  · rw [if_neg fun h => hr h.1, if_neg hr]

/-- Settles O40: the blocks' writes at the assertion of RESET. -/
theorem resetAssertState : Obligations.ResetAssertState := by
  intro s hinv hd
  obtain ⟨hpending, hopened⟩ := emptied_outcome s.csu
  have hexec : exec .resetAssert s = .next (resetAsserted s).judgeNote := by
    show done (resetAsserted s.settled) = _
    rw [State.settled_of_not_due hd]
    rfl
  refine ⟨_, hexec, ?_⟩
  rw [resetAsserted_eq, blocksReset_eq]
  refine ⟨fun i => ?_, rfl, rfl, rfl, Csu.emptied_changes _, Csu.emptied_setState _, Csu.emptied_seq _, hpending, hopened, rfl, rfl,
    rfl, rfl, ?_, ?_, rfl⟩
  · show slotAt (touchCleared (releaseReservations s.rgt.slots s.csu.changes)) i = _
    rw [touchCleared, slotAt_tabulate, release_of_laws hinv.laws]
    split <;> rfl
  · show Pu.mk _ _ _ _ _ _ _ s.pu.causeAfterReset = _
    unfold Pu.causeAfterReset
    cases s.pu.contact <;> rfl
  · show s.hp.resetAsserted = _
    unfold Hp.resetAsserted
    cases s.hp.trans <;> simp [hd, Hp.clearFaults]

theorem softRetired_iff {s : State} {x : Slot} : x.softRetired s.rgt.guardInForce = true ↔
    x.state = .live ∧ x.record.locked = false
      ∧ ¬(x.record.cls = .telltale ∧ s.rgt.guardEnable = true ∧ s.rgt.guardLine = .asserted) := by
  simp only [Slot.softRetired, Rgt.guardInForce, Bool.and_eq_true, beq_iff_eq, Bool.not_eq_true', ← Bool.not_eq_true, and_assoc]
  rw [and_rotate (a := x.record.cls = .telltale)]

/-- The slots after a soft reset, in a lawful table (R26, R66, R156). -/
theorem slotAt_softResetSlots {s : State} (h : s.Laws) (i : Fin 32) : slotAt (softResetSlots s) i =
    if (slotAt s.rgt.slots i).state = .reserved then (slotAt s.rgt.slots i).freed
    else if (slotAt s.rgt.slots i).softRetired s.rgt.guardInForce then (slotAt s.rgt.slots i).freed
    else { slotAt s.rgt.slots i with touch := (slotAt s.rgt.slots i).touch.map fun _ => TouchPart.cleared } := by
  rw [softResetSlots, touchCleared, slotAt_tabulate, softRetiredTable, slotAt_tabulate, release_of_laws h]
  split
  · rfl
  · split <;> rfl

/-- The survivors of a soft reset are the handles that are LIVE after it (R26, R39). -/
theorem softReset_stack {s : State} (h : s.Laws) :
    (softResetEffect s).rgt.stack = s.rgt.stack.filter fun a => isLive (softResetEffect s).rgt.slots a := by
  rw [softResetEffect_stack, softResetEffect_slots]
  refine List.filter_congr fun a ha => ?_
  obtain ⟨hg, hlive⟩ := isLive_iff.1 (h.table.stack.2.1 a ha)
  rw [Bool.eq_iff_iff, isLive_iff, slotAt_softResetSlots h, release_of_laws h,
    if_neg (by simp [hlive]), if_neg (by simp [hlive])]
  split
  · next hr => simp [hr]
  · next hr => simp [hr, hg, hlive]

/-- Settles O41: the soft reset's writes, block by block. -/
theorem softResetActionState : Obligations.SoftResetActionState := by
  refine ⟨fun s hd => ?_, fun s hinv hd => ?_⟩
  · show done s.settled = _
    rw [State.settled_of_not_due hd]
    rfl
  · have h := hinv.laws
    obtain ⟨hpending, hopened⟩ := emptied_outcome s.csu
    have hexec : exec .softResetAction s = .next (softResetEffect s).judgeNote := by
      show done s.settled = _
      rw [State.settled_of_due hd]
      rfl
    refine ⟨_, hexec, fun i => ?_, softReset_stack h, ?_⟩
    · dsimp only
      rw [State.judgeNote_rgt, softResetEffect_slots, slotAt_softResetSlots h]
      simp only [softRetired_iff]
      rfl
    · rw [softResetEffect_eq]
      refine ⟨rfl, rfl, Csu.emptied_changes _, Csu.emptied_setState _, Csu.emptied_seq _, hpending, hopened, rfl, rfl, rfl, rfl, ?_, rfl,
        rfl⟩
      show Pu.mk _ _ _ _ _ _ _ s.pu.causeAfterReset = _
      unfold Pu.causeAfterReset
      cases s.pu.contact <;> rfl

/-- Settles O42, by the level at which each line stands. -/
theorem boardLineChanges : Obligations.BoardLineChanges := by
  intro s hd
  refine ⟨fun level => ?guard, fun level => ?fallback, fun hr hs => ?idle, fun hr hs => ?held, fun hr => ?released⟩
  case guard => simp only [exec, execGuardLineChange, State.settled_of_not_due hd]; rfl
  case fallback => simp only [exec, execFallbackLineChange, State.settled_of_not_due hd]; rfl
  case idle => simp only [exec, execResetRelease, State.settled_of_not_due hd, hr, hs, if_true]; rfl
  case held => simp only [exec, execResetRelease, State.settled_of_not_due hd, hr, hs, if_true]; rfl
  case released => simp only [exec, execResetRelease, State.settled_of_not_due hd, hr]; rfl

/-! ### The edges of SELECT, and the bits between them (R165, R167) -/

/-- With no soft reset due, every row in which a byte comes in clocks the port with its levels; its byte is ignored outside a request and
a reply. -/
theorem exec_of_clocksPort {c : Instr} {sdi : SdiBits} {s : State} (hd : s.hp.softResetDue = false) (hc : clocksPort c sdi s) :
    ∃ event, exec c s = s.clock sdi event
      ∧ ((s.hp.trans = .idle ∨ s.hp.trans = .draining ∨ s.hp.trans = .held) → ∀ b, event b = done s.ignoreByte) := by
  rcases hc with rfl | rfl | ⟨k, rfl⟩ | ⟨rfl | rfl, rfl⟩
  · simp only [exec, execRequestByteReceived, State.settled_of_not_due hd]
    exact ⟨_, rfl, by rintro (h | h | h) b <;> simp only [h]⟩
  · simp only [exec, execFramingFault, State.settled_of_not_due hd]
    exact ⟨_, rfl, by rintro (h | h | h) b <;> simp only [h]⟩
  · rw [exec_row, State.settled_of_not_due hd]
    exact ⟨_, rfl, by rintro (h | h | h) b <;> simp only [h]⟩
  · simp only [exec, execReplyByteShifted, State.settled_of_not_due hd]
    exact ⟨_, rfl, by rintro (h | h | h) b <;> simp only [h]⟩
  · simp only [exec, execReplyComplete, State.settled_of_not_due hd]
    exact ⟨_, rfl, by rintro (h | h | h) b <;> simp only [h]⟩

/-- A ninth bit is another row's (R165; log entry 3). -/
theorem clock_of_past {s : State} {sdi : SdiBits} (h : s.hp.select = .asserted) (hr : s.hp.resetLine = .released)
    (hn : 8 < (s.hp.bits ++ sdi).length) (event : Byte → Host.Outcome State Fault Refusal) :
    s.clock sdi event = .refused .bitsPastTheByte := by
  unfold State.clock
  rw [if_neg (by simp [h]), if_neg (by simp [hr])]
  dsimp only
  rw [if_neg (by omega), if_neg (by omega)]

theorem byteAt_of_getElem? {bytes : List Byte} {i : Nat} {b : Byte} (h : bytes[i]? = some b) : byteAt bytes i = b := by
  simp [byteAt, List.getD, h]

/-- The byte SDO carries: the reply's next byte in REPLYING, and 0x00 otherwise (R167, R171). -/
theorem outByte_eq {t : TransState} {out : Byte} (hreply : ∀ reply sent soft, t = .replying reply sent soft → reply[sent]? = some out)
    (hother : (∀ reply sent soft, t ≠ .replying reply sent soft) → out = 0) : t.outByte = out := by
  cases t with
  | replying reply sent soft => exact byteAt_of_getElem? (hreply reply sent soft rfl)
  | _ => exact (hother (by simp)).symm

/-- Settles O43: the fall and the rise by the transaction state, and the bits between by their number. -/
theorem selectEdges : Obligations.SelectEdges := by
  intro s hd
  refine ⟨fun hs => ?low, fun hs ht hr => ?begins, fun hs ht => ?falls, fun hs => ?high, fun hs f ht => ?cut,
    fun hs reply sent soft ht => ?lost, fun hs ht => ?ends, fun hs ht hr => ?held, fun c sdi hc => ?bits⟩
  case low => simp only [exec, execSelectFall, State.settled_of_not_due hd, hs, if_true]; rfl
  case begins => simp only [exec, execSelectFall, State.settled_of_not_due hd, hs, ht, hr]; rfl
  case falls =>
    have hstays : ¬(s.hp.trans = .idle ∧ s.hp.resetLine = .released) := by
      rintro ⟨hi, hr⟩
      rcases ht with ht | ht
      · exact ht hi
      · simp [hr] at ht
    simp only [exec, execSelectFall, State.settled_of_not_due hd, hs, if_neg hstays]
    rfl
  case high => simp only [exec, execSelectRise, State.settled_of_not_due hd, hs, if_true]; rfl
  case cut =>
    simp only [exec, execSelectRise, State.settled_of_not_due hd, hs, Hp.selectRisen, ht]
    cases f.kind <;> simp <;> rfl
  case lost => simp only [exec, execSelectRise, State.settled_of_not_due hd, hs, Hp.selectRisen, ht]; rfl
  case ends =>
    rcases ht with ht | ht | ⟨ht, hr⟩
    · simp only [exec, execSelectRise, State.settled_of_not_due hd, hs, Hp.selectRisen, ht]; rfl
    · simp only [exec, execSelectRise, State.settled_of_not_due hd, hs, Hp.selectRisen, ht]; rfl
    · simp only [exec, execSelectRise, State.settled_of_not_due hd, hs, Hp.selectRisen, ht, hr]; rfl
  case held => simp only [exec, execSelectRise, State.settled_of_not_due hd, hs, Hp.selectRisen, ht, hr]; rfl
  case bits =>
    obtain ⟨event, hexec, -⟩ := exec_of_clocksPort hd hc
    rw [hexec]
    refine ⟨fun hs hr hn out hreply hother => ?_, fun hs hr hn => clock_of_past hs hr hn event,
      fun hs hr => State.clock_of_held hs hr sdi event, fun hs => State.clock_of_released hs sdi event⟩
    rw [← outByte_eq hreply hother]
    exact State.clock_of_partial hs hr hn event

/-! ### The bytes of a request and of a reply (R167, R168, R171, R172) -/

/-- Settles O44: the place of a byte in the frame says what it becomes. -/
theorem requestBytesAreHeld : Obligations.RequestBytesAreHeld := by
  intro b sdi f s hd hclk ht
  have hexec : exec (.requestByteReceived sdi) s =
      if f.atCheckByte then .refused .notAtRequestByte else done (s.endByte (.receiving (f.take b))) := by
    simp only [exec, execRequestByteReceived, State.settled_of_not_due hd, State.clock_of_clocked hclk, ht]
  have hbyte (hf : f.atCheckByte = false) :
      exec (.requestByteReceived sdi) s = .next ((s.setHp { s.hp with trans := .receiving (f.take b), bits := [] }).setPins
        { s.pins with sdo := some (byteBits 0) }).judgeNote := by
    rw [hexec, hf, State.endByte, ht]
    rfl
  refine ⟨fun hk hn => ?kind, fun kind hk hn => ?length, fun kind n hk hn hlen => ?param, fun kind n hk hn hlen => ?check⟩
  case kind => rw [hbyte (by simp [Frame.atCheckByte, hk])]; simp only [Frame.take, hk, hn]
  case length => rw [hbyte (by simp [Frame.atCheckByte, hk, hn])]; simp only [Frame.take, hk, hn]
  case param => rw [hbyte (by simp [Frame.atCheckByte, hk, hn]; omega)]; simp only [Frame.take, hk, hn]
  case check => rw [hexec, if_pos (Frame.atCheckByte_iff.2 ⟨kind, n, hk, hn, hlen⟩)]

/-- Settles O45: in a reply the byte's place says whether more is to come; outside a request and a reply no byte has an event. -/
theorem replyBytesLeaveInOrder : Obligations.ReplyBytesLeaveInOrder := by
  refine ⟨fun reply sent soft s hd hs hr hn ht => ?_, fun s b sdi hd hclk hi c hc => ?_⟩
  · have hclk := State.clocked_restOfByte hs hr (by omega)
    have hshift : exec .replyByteShifted s =
        if sent + 1 < reply.length then done (s.endByte (.replying reply (sent + 1) soft)) else .refused .notAtReplyByte := by
      simp only [exec, execReplyByteShifted, State.settled_of_not_due hd, State.clock_of_clocked hclk, ht]
    have hcomplete : exec .replyComplete s =
        if sent + 1 = reply.length then done ((s.endByte .draining).setHp { (s.endByte .draining).hp with softResetDue := soft })
        else .refused .notAtReplyCheck := by
      simp only [exec, execReplyComplete, State.settled_of_not_due hd, State.clock_of_clocked hclk, ht]
    have hout {out : Byte} (ho : reply[sent]? = some out) : s.hp.trans.outByte = out := by rw [ht]; exact byteAt_of_getElem? ho
    refine ⟨fun out ho hlt => ?_, fun out ho he => ?_, fun hlt => ?_, fun he => ?_, fun b sdi hb => ?_⟩
    · rw [hshift, if_pos hlt, ← hout ho]
      rfl
    · rw [hcomplete, if_pos he, ← hout ho]
      rfl
    · rw [hcomplete, if_neg (by omega)]
    · rw [hshift, if_neg (by omega)]
    · simp only [exec, execRequestByteReceived, State.settled_of_not_due hd, State.clock_of_clocked hb, ht]
  · obtain ⟨event, hexec, hignored⟩ := exec_of_clocksPort hd hc
    have hzero : s.hp.trans.outByte = 0 := by rcases hi with h | h | h <;> rw [h] <;> rfl
    rw [hexec, State.clock_of_clocked hclk, hignored hi, ← hzero]
    rfl

end Sys2Proof.Machine
end

section
/-! PROOFS. The judgement of a frame, and what every owner's answer is: a refusal that changes nothing, or DONE with the reply's length. -/

namespace Sys2Proof.Machine
open Sys2Proof

-- One theorem after another, as in the tests: each thread of its own takes a stack and a heap of the checker's memory.
set_option Elab.async false

/-! ### The judgement of a frame (R169) -/

section Check
variable {f : Frame} {check : Byte} {sdi : SdiBits} {s : State}

/-- FRAMING_FAULT at a check byte: the fault's reply, or refused where the frame is good. -/
theorem exec_framingFault_of_fault {e : FramingError} (hd : s.hp.softResetDue = false) (hclk : Clocked check sdi s)
    (ht : s.hp.trans = .receiving f) (hat : f.atCheckByte = true) (he : f.judge check = some e) :
    exec (.framingFault sdi) s = .next (s.faultReply e).judgeNote := by
  simp only [exec, execFramingFault, State.settled_of_not_due hd, State.clock_of_clocked hclk, ht, hat, if_true, he, done]

theorem exec_framingFault_of_good (hd : s.hp.softResetDue = false) (hclk : Clocked check sdi s) (ht : s.hp.trans = .receiving f)
    (hat : f.atCheckByte = true) (he : f.judge check = none) : exec (.framingFault sdi) s = .refused .frameNotFaulty := by
  simp only [exec, execFramingFault, State.settled_of_not_due hd, State.clock_of_clocked hclk, ht, hat, if_true, he]

/-- The row of a request at the check byte of a faulty frame of its kind, and of a frame of another kind. -/
theorem exec_row_of_fault {e : FramingError} {k : RequestKind} (hd : s.hp.softResetDue = false) (hclk : Clocked check sdi s)
    (ht : s.hp.trans = .receiving f) (hat : f.atCheckByte = true) (hk : f.kind = some k.code) (he : f.judge check = some e) :
    exec (k.row sdi) s = .next (s.faultReply e).judgeNote := by
  rw [exec_row, State.settled_of_not_due hd, takeRequest, State.clock_of_clocked hclk]
  simp only [ht, hat, if_true, hk, he, done]

theorem exec_row_of_other {k : RequestKind} (hd : s.hp.softResetDue = false) (hclk : Clocked check sdi s)
    (ht : s.hp.trans = .receiving f) (hat : f.atCheckByte = true) (hk : f.kind ≠ some k.code) :
    exec (k.row sdi) s = .refused .frameOfOtherKind := by
  rw [exec_row, State.settled_of_not_due hd, takeRequest, State.clock_of_clocked hclk]
  simp only [ht, hat, if_true, if_neg hk]

/-- The judgement of a frame, as its first check that fails (R169). -/
theorem Frame.judge_of_crc {kind length : Byte} (hk : f.kind = some kind) (hl : f.length = some length)
    (hcrc : crcByte f.crc check ≠ 0) : f.judge check = some .check := by
  rw [Frame.judge_eq hk hl, if_pos hcrc]

theorem Frame.judge_of_unknown {kind length : Byte} (hk : f.kind = some kind) (hl : f.length = some length)
    (hcrc : crcByte f.crc check = 0) (hcode : ∀ k : RequestKind, k.code ≠ kind) : f.judge check = some .unknown := by
  rw [Frame.judge_eq hk hl, if_neg (not_not.2 hcrc), RequestKind.ofCode_eq_none.2 hcode]

theorem Frame.judge_of_known {kind length : Byte} {k : RequestKind} (hk : f.kind = some kind) (hl : f.length = some length)
    (hcrc : crcByte f.crc check = 0) (hcode : k.code = kind) :
    f.judge check = if length.toNat = k.paramLength then none else some .length := by
  rw [Frame.judge_eq hk hl, if_neg (not_not.2 hcrc), RequestKind.ofCode_eq_some.2 hcode]

end Check

/-- Settles O23: the first check that fails, and the row's own kind. -/
theorem framingJudgement : Obligations.FramingJudgement := by
  intro f kind length check sdi s hd hclk ht hk hl hp
  have hat : f.atCheckByte = true := Frame.atCheckByte_iff.2 ⟨kind, length, hk, hl, hp⟩
  refine ⟨fun hcrc => ?check, fun hcrc hcode => ?unknown, fun k hcrc hcode hlen => ?length, fun k hcrc hcode hlen => ?good,
    fun k hcode hbad => ?row, fun k hcode => ?other⟩
  case check =>
    rw [exec_framingFault_of_fault hd hclk ht hat (Frame.judge_of_crc hk hl hcrc)]
    rfl
  case unknown =>
    rw [exec_framingFault_of_fault hd hclk ht hat (Frame.judge_of_unknown hk hl hcrc hcode)]
    rfl
  case length =>
    rw [exec_framingFault_of_fault hd hclk ht hat ((Frame.judge_of_known hk hl hcrc hcode).trans (if_neg hlen))]
    rfl
  case good => exact exec_framingFault_of_good hd hclk ht hat ((Frame.judge_of_known hk hl hcrc hcode).trans (if_pos hlen))
  case row =>
    have hfault : ∃ e, f.judge check = some e := by
      by_cases hcrc : crcByte f.crc check = 0
      · have hlen : length.toNat ≠ k.paramLength := hbad.resolve_left (not_not.2 hcrc)
        exact ⟨_, (Frame.judge_of_known hk hl hcrc hcode).trans (if_neg hlen)⟩
      · exact ⟨_, Frame.judge_of_crc hk hl hcrc⟩
    obtain ⟨e, he⟩ := hfault
    rw [exec_framingFault_of_fault hd hclk ht hat he, exec_row_of_fault hd hclk ht hat (by rw [hk, hcode]) he]
  case other =>
    refine exec_row_of_other hd hclk ht hat ?_
    rw [hk]
    exact fun he => hcode (Option.some.inj he).symm

/-! ### The lengths of the replies (R185, R187) -/

theorem descriptorBytes_length (r : RegionRecord) : (descriptorBytes r).length = 20 := by
  cases h : r.cursor <;> simp [descriptorBytes, cursorBytes, h, put1, put2, putAddr]

theorem regionBytes_length (h : Handle) (x : Slot) (position : Nat) : (regionBytes h x position).length = 24 := by
  simp [regionBytes, descriptorBytes_length]

theorem outcomeBytes_length (o : OutcomeRecord) : (outcomeBytes o).length = 5 := by
  obtain ⟨seq, result, count⟩ := o
  cases result <;> rfl

theorem hitBytes_length (hit : Hit) : (hitBytes hit).length = 2 := by cases hit <;> rfl

theorem probeBytes_length (s : State) (hit : Hit) (entries : List Entry) :
    (probeBytes s hit entries).length = 3 + 2 * entries.length := by
  have hentry (e : Entry) : (entryBytes s e).length = 2 := by cases e <;> rfl
  simp only [probeBytes, List.length_append, hitBytes_length, put1, List.length_flatMap, hentry, List.map_const', List.sum_replicate,
    List.length_singleton, smul_eq_mul]
  omega

theorem statusBytes_length (s : State) : (statusBytes s).length = 13 := by
  cases h : s.pu.contact <;> simp [statusBytes, contactBytes, h, newsBytes]

/-! ### The answers of the owners (R170, R175) -/

/-- What an owner's answer is: a refusal with a code of its own, which leaves everything, or DONE with the reply's length. -/
inductive Answered (k : RequestKind) (p : List Byte) (s : State) (a : Answer) : Prop
  | refused (code : ReplyCode) : a = .refuse s code → code ≠ .done → code ≠ .check → code ≠ .length → code ≠ .unknown →
      Answered k p s a
  | done : a.code = .done → a.bytes.length = k.doneLength s p → Answered k p s a

section Owners
variable (p : List Byte) (s : State)

theorem listFault_code {c : Csu} {code : ReplyCode} (h : listFault c = some code) : code = .busy ∨ code = .full := by
  unfold listFault at h
  split at h
  · injection h with h; exact .inl h.symm
  · split at h
    · injection h with h; exact .inr h.symm
    · cases h

theorem answered_of_listFault {k : RequestKind} {code : ReplyCode} (h : listFault s.csu = some code) :
    Answered k p s (.refuse s code) := by
  rcases listFault_code h with rfl | rfl <;> exact .refused _ rfl (by decide) (by decide) (by decide) (by decide)

/-- A refusal with a code that is none of HP's. -/
theorem answered_refuse (k : RequestKind) (code : ReplyCode) (hc : code ≠ .done ∧ code ≠ .check ∧ code ≠ .length ∧ code ≠ .unknown) :
    Answered k p s (.refuse s code) := by
  obtain ⟨hdone, hcheck, hlength, hunknown⟩ := hc
  exact .refused code rfl hdone hcheck hlength hunknown

theorem createRequest_answered : Answered .create p s (createRequest p s) := by
  unfold createRequest
  split
  · next hlist => exact answered_of_listFault p s hlist
  · split
    · exact answered_refuse p s _ _ (by decide)
    · split
      · exact answered_refuse p s _ _ (by decide)
      · exact .done rfl rfl

theorem stageChange_answered {k : RequestKind} (hk : k.doneLength s p = 1) (target : Handle) (payload : Option Operation)
    (lockChecked : Bool) : Answered k p s (stageChange target payload lockChecked s) := by
  unfold stageChange
  split
  · next hlist => exact answered_of_listFault p s hlist
  · split
    · exact answered_refuse p s _ _ (by decide)
    · split_ifs
      · exact answered_refuse p s _ _ (by decide)
      · exact answered_refuse p s _ _ (by decide)
      · exact .done rfl hk.symm

theorem owner_answered (k : RequestKind) : Answered k p s (k.owner p s) := by
  cases k with
  | create => exact createRequest_answered p s
  | amend => exact stageChange_answered p s rfl _ _ _
  | retire => exact stageChange_answered p s rfl (readHandle p) (some .retire) true
  | restack => exact stageChange_answered p s rfl _ _ _
  | lock => exact stageChange_answered p s rfl (readHandle p) (some .lock) false
  | publish =>
    simp only [RequestKind.owner, publishRequest]
    split_ifs
    · exact answered_refuse p s _ _ (by decide)
    · exact .done rfl rfl
    · exact .done rfl rfl
  | withdraw =>
    simp only [RequestKind.owner, withdrawRequest]
    split
    · exact .done rfl rfl
    · exact answered_refuse p s _ _ (by decide)
  | discard =>
    simp only [RequestKind.owner, discardRequest]
    split
    · exact answered_refuse p s _ _ (by decide)
    · exact .done rfl rfl
  | guardOff =>
    simp only [RequestKind.owner, guardOffRequest]
    split
    · exact answered_refuse p s _ _ (by decide)
    · exact .done rfl rfl
  | setTiming =>
    simp only [RequestKind.owner, setTimingRequest]
    split
    · exact answered_refuse p s _ _ (by decide)
    · split
      · exact .done rfl rfl
      · exact answered_refuse p s _ _ (by decide)
  | startScan =>
    simp only [RequestKind.owner, startScanRequest]
    split
    · exact .done rfl rfl
    · exact answered_refuse p s _ _ (by decide)
  | readOutcome => exact .done rfl (outcomeBytes_length _)
  | readRegion =>
    simp only [RequestKind.owner, readRegionRequest]
    split
    · exact .done rfl (regionBytes_length _ _ _)
    · exact answered_refuse p s _ _ (by decide)
  | readStack => exact .done rfl (by simp [readStackRequest, RequestKind.owner, stackBytes, RequestKind.doneLength]; omega)
  | guardOn | readTiming | softReset => exact .done rfl rfl
  | stopScan =>
    simp only [RequestKind.owner, stopScanRequest]
    split
    · exact .done rfl rfl
    · exact .done rfl rfl
    · exact answered_refuse p s _ _ (by decide)
  | pointerSettings =>
    simp only [RequestKind.owner, pointerSettingsRequest]
    split
    · exact answered_refuse p s _ _ (by decide)
    · exact .done rfl rfl
  | readTouch =>
    simp only [RequestKind.owner, readTouchRequest]
    split
    · split
      · exact .done rfl rfl
      · exact answered_refuse p s _ _ (by decide)
    · exact answered_refuse p s _ _ (by decide)
  | probe =>
    simp only [RequestKind.owner, probeRequest]
    split
    · exact .done rfl (probeBytes_length _ _ _)
    · exact answered_refuse p s _ _ (by decide)
  | readStatus => exact .done rfl (statusBytes_length s)
  | setNoteMask =>
    simp only [RequestKind.owner, setNoteMaskRequest]
    split
    · exact answered_refuse p s _ _ (by decide)
    · exact .done rfl rfl

end Owners

/-- Settles O22: the owner's answer goes into the reply, and it is a refusal or DONE. -/
theorem presentedRequestIsAnswered : Obligations.PresentedRequestIsAnswered := by
  intro k p sdi s h
  refine ⟨(k.owner p s).code, (k.owner p s).bytes, _, exec_row_of_presented h, rfl, rfl, rfl, ?_⟩
  cases owner_answered p s k with
  | refused code ha hdone hcheck hlength hunknown =>
    have hk : (k == .softReset) = false := by
      cases k with
      | softReset => exact absurd (congrArg Answer.code ha).symm hdone
      | _ => rfl
    rw [ha, hk]
    exact ⟨hcheck, hlength, hunknown, fun he => absurd he hdone, fun _ => ⟨rfl, rfl⟩⟩
  | done hcode hbytes =>
    rw [hcode]
    exact ⟨by decide, by decide, by decide, fun _ => hbytes, fun hn => absurd rfl hn⟩

end Sys2Proof.Machine
end

section
/-! PROOFS. The staging requests, the scan's requests, PU's and HP's requests: each answer by its checks in order, and the bytes of the
payloads and of the replies. -/

namespace Sys2Proof.Machine
open Sys2Proof

-- One theorem after another, as in the tests: each thread of its own takes a stack and a heap of the checker's memory.
set_option Elab.async false

/-! ### CREATE (R3, R44, R47) -/

section Staging
variable {p : List Byte} {s : State}

theorem listFault_of_pending {c : Csu} (h : c.setState = .pending) : listFault c = some .busy := if_pos h

theorem listFault_of_full {c : Csu} (h : c.setState = .opened) (hn : 16 ≤ c.changes.length) : listFault c = some .full := by
  rw [listFault, if_neg (by simp [h]), if_pos hn]

theorem listFault_of_room {c : Csu} (h : c.setState = .opened) (hn : c.changes.length < 16) : listFault c = none :=
  listFault_eq_none.2 ⟨by simp [h], hn⟩

theorem createRequest_of_listFault {code : ReplyCode} (h : listFault s.csu = some code) : createRequest p s = .refuse s code := by
  rw [createRequest, h]

theorem createRequest_of_unread (h : listFault s.csu = none) (hp : readDescriptor p = none) : createRequest p s = .refuse s .range := by
  rw [createRequest, h, hp]

theorem createRequest_of_noSlot {d : RegionRecord} (h : listFault s.csu = none) (hp : readDescriptor p = some d)
    (hfree : lowestFree s.rgt.slots = none) : createRequest p s = .refuse s .noSlot := by
  rw [createRequest, h, hp, hfree]

theorem createRequest_of_free {d : RegionRecord} {i : Fin 32} (h : listFault s.csu = none) (hp : readDescriptor p = some d)
    (hfree : lowestFree s.rgt.slots = some i) : createRequest p s =
      ⟨(s.setSlots (reserveSlot s.rgt.slots i d)).stage (handleOf s.rgt.slots i) (.create d), .done,
        [(handleOf s.rgt.slots i).toByte, nextIndex s.csu]⟩ := by
  rw [createRequest, h, hp, hfree]

/-- Settles O46, check by check. -/
theorem createReservesLowestFreeSlot : Obligations.CreateReservesLowestFreeSlot := by
  intro p sdi s h
  refine ⟨fun hset => ?busy, fun hset hn => ?full, fun hset hn hp => ?range, fun d hset hn hp hall => ?noSlot,
    fun d i hset hn hp hi hlow => ?taken⟩
  case busy => exact exec_row_refused h (by decide) (createRequest_of_listFault (listFault_of_pending hset))
  case full => exact exec_row_refused h (by decide) (createRequest_of_listFault (listFault_of_full hset hn))
  case range => exact exec_row_refused h (by decide) (createRequest_of_unread (listFault_of_room hset hn) hp)
  case noSlot =>
    exact exec_row_refused h (by decide) (createRequest_of_noSlot (listFault_of_room hset hn) hp (lowestFree_eq_none.2 hall))
  case taken =>
    exact exec_row_answered h (by decide)
      (createRequest_of_free (listFault_of_room hset hn) hp (lowestFree_eq_some.2 ⟨hi, hlow⟩))

/-! ### AMEND, RETIRE, RESTACK and LOCK (R44, R46, R48) -/

/-- The answer to a staging request goes into the reply, check by check. -/
theorem stageChange_answer (target : Handle) (payload : Option Operation) (lockChecked : Bool) (s : State) :
    (stageChange target payload lockChecked s).state.answered (stageChange target payload lockChecked s).code
        (stageChange target payload lockChecked s).bytes =
      if s.csu.setState = .pending then s.refusedWith .busy
      else if 16 ≤ s.csu.changes.length then s.refusedWith .full
      else payload.elim (s.refusedWith .range) fun op =>
        if isCurrent s.rgt.slots target = false then s.refusedWith .stale
        else if lockChecked = true ∧ lockedLive s.rgt.slots target = true then s.refusedWith .locked
        else (s.stage target op).answered .done [nextIndex s.csu] := by
  unfold stageChange listFault
  by_cases hset : s.csu.setState = .pending
  · simp only [if_pos hset]; rfl
  · by_cases hn : 16 ≤ s.csu.changes.length
    · simp only [if_neg hset, if_pos hn]; rfl
    · simp only [if_neg hset, if_neg hn]
      cases payload with
      | none => rfl
      | some op =>
        simp only [Option.elim_some, Bool.not_eq_true', Bool.and_eq_true]
        split_ifs <;> rfl

/-- A current handle's region is locked in the applied table (R46). -/
theorem lockedLive_iff {t : SlotTable} {a : Handle} (h : isCurrent t a = true) : lockedLive t a = true ↔
    (slotAt t a.slot).state = .live ∧ (slotAt t a.slot).record.locked = true := by
  simp only [lockedLive, Bool.and_eq_true, isLive_iff, (isCurrent_iff.1 h).1, true_and]

end Staging

section Payload
variable {p : List Byte} {g : Group}

/-- The payload of an AMEND, by its group code (R186). -/
theorem readGroup_geometry (h : num1 p 1 = 1) : readGroup p = some g ↔
    g = .geometry ⟨num1 p 2, num2 p 3, num1 p 5, num2 p 6⟩ ∧ g.inRange := by
  have hcode : readGroup p = (readRect (num1 p 2) (num2 p 3) (num1 p 5) (num2 p 6)).map Group.geometry := by
    rw [readGroup, show (byteAt p 1).toNat = 1 from h]
    rfl
  rw [hcode, Option.map_eq_some_iff]
  simp only [readRect_eq_some_iff]
  constructor
  · rintro ⟨r, ⟨rfl, hr⟩, rfl⟩; exact ⟨rfl, hr⟩
  · rintro ⟨rfl, hr⟩; exact ⟨_, ⟨rfl, hr⟩, rfl⟩

theorem readGroup_source (h : num1 p 1 = 2) : readGroup p = some g ↔
    g = .source (if (byteAt p 2).getLsbD 6 = true then ⟨.bitmap, addr3 p 3, num2 p 6, 1, 0⟩
      else ⟨.text, addr3 p 3, num2 p 6, num1 p 8, num1 p 9⟩) ∧ g.inRange := by
  have hcode : readGroup p
      = (readSource (readKind (byteAt p 2)) (addr3 p 3) (num2 p 6) (num1 p 8) (num1 p 9)).map Group.source := by
    rw [readGroup, show (byteAt p 1).toNat = 2 from h]
    rfl
  rw [hcode, Option.map_eq_some_iff]
  simp only [readSource_eq_some_iff, readKind_eq]
  constructor
  · rintro ⟨r, ⟨rfl, hr⟩, rfl⟩; exact ⟨rfl, hr⟩
  · rintro ⟨rfl, hr⟩; exact ⟨_, ⟨rfl, hr⟩, rfl⟩

theorem readGroup_scroll (h : num1 p 1 = 3) : readGroup p = some g ↔ g = .scroll (addr3 p 2) (num1 p 5) ∧ g.inRange := by
  have hcode : readGroup p = if num1 p 5 ≤ 31 then some (.scroll (addr3 p 2) (num1 p 5)) else none := by
    rw [readGroup, show (byteAt p 1).toNat = 3 from h]
    rfl
  rw [hcode]
  split
  · next hle => exact ⟨fun hg => by cases hg; exact ⟨rfl, hle⟩, fun hg => by rw [hg.1]⟩
  · next hle =>
    constructor
    · exact fun hg => nomatch hg
    · rintro ⟨rfl, hr⟩; exact absurd hr hle

theorem readGroup_look (h : num1 p 1 = 4) : readGroup p = some g ↔
    g = .look ⟨(byteAt p 2).getLsbD 5, (byteAt p 2).getLsbD 4, (byteAt p 2).getLsbD 3⟩ := by
  have hcode : readGroup p = some (.look (readLook (byteAt p 2))) := by
    rw [readGroup, show (byteAt p 1).toNat = 4 from h]
    rfl
  rw [hcode, Option.some_inj, eq_comm]
  rfl

theorem readGroup_cursor (h : num1 p 1 = 5) : readGroup p = some g ↔
    ((byteAt p 2).getLsbD 7 = false ∧ g = .cursor none)
      ∨ ((byteAt p 2).getLsbD 7 = true ∧ ∃ m : BlinkMode, num1 p 2 % 4 = m.code
        ∧ g = .cursor (some ⟨addr3 p 3, num1 p 6, num1 p 7, m⟩) ∧ g.inRange) := by
  have hcode : readGroup p = (readCursor (byteAt p 2) (addr3 p 3) (num1 p 6) (num1 p 7)).map Group.cursor := by
    rw [readGroup, show (byteAt p 1).toNat = 5 from h]
    rfl
  rw [hcode, Option.map_eq_some_iff]
  simp only [readCursor_eq_some_iff]
  constructor
  · rintro ⟨c, ⟨hb, rfl⟩ | ⟨hb, m, hm, rfl, hr⟩, rfl⟩
    · exact .inl ⟨hb, rfl⟩
    · exact .inr ⟨hb, m, hm, rfl, hr⟩
  · rintro (⟨hb, rfl⟩ | ⟨hb, m, hm, rfl, hr⟩)
    · exact ⟨_, .inl ⟨hb, rfl⟩, rfl⟩
    · exact ⟨_, .inr ⟨hb, m, hm, rfl, hr⟩, rfl⟩

theorem readGroup_touch (h : num1 p 1 = 6) : readGroup p = some g ↔ ∃ m : TouchMode, num1 p 2 % 4 = m.code ∧ g = .touch m := by
  have hcode : readGroup p = (readTouchMode (byteAt p 2)).map Group.touch := by
    rw [readGroup, show (byteAt p 1).toNat = 6 from h]
    rfl
  rw [hcode, Option.map_eq_some_iff]
  simp only [readTouchMode_eq_some_iff]
  exact ⟨fun ⟨m, hm, hg⟩ => ⟨m, hm, hg.symm⟩, fun ⟨m, hm, hg⟩ => ⟨m, hm, hg.symm⟩⟩

/-- A group code that is none (R48). -/
theorem readGroup_eq_none (h : num1 p 1 = 0 ∨ 7 ≤ num1 p 1) : readGroup p = none := by
  unfold readGroup num1 at *
  split
  case h_7 => rfl
  all_goals omega

/-- The position of a RESTACK, by its code (R31, R32, R185). -/
theorem readPosition_above (h : num1 p 1 = 3) : readPosition p =
    if byteAt p 2 = byteAt p 0 then none else some (.above (Handle.ofByte (byteAt p 2))) := by
  rw [readPosition, show (byteAt p 1).toNat = 3 from h]
  simp only [Handle.ofByte_inj]

theorem readPosition_below (h : num1 p 1 = 4) : readPosition p =
    if byteAt p 2 = byteAt p 0 then none else some (.below (Handle.ofByte (byteAt p 2))) := by
  rw [readPosition, show (byteAt p 1).toNat = 4 from h]
  simp only [Handle.ofByte_inj]

theorem readPosition_eq_none (h : num1 p 1 = 0 ∨ 5 ≤ num1 p 1) : readPosition p = none := by
  unfold readPosition num1 at *
  split
  case h_5 => rfl
  all_goals omega

end Payload

/-- Settles O47: the answer of the staging checks, and the payloads code by code. -/
theorem stagingRequestsAddRecords : Obligations.StagingRequestsAddRecords := by
  intro p sdi s target n judged
  have hjudged (payload : Option Operation) (lockChecked : Bool) :
      (stageChange target payload lockChecked s).state.answered (stageChange target payload lockChecked s).code
        (stageChange target payload lockChecked s).bytes = judged payload lockChecked := by
    rw [stageChange_answer]
    cases payload with
    | none => rfl
    | some op =>
      refine if_congr Iff.rfl rfl (if_congr Iff.rfl rfl ?_)
      by_cases hcur : isCurrent s.rgt.slots target = true
      · exact if_congr Iff.rfl rfl (if_congr (and_congr Iff.rfl (lockedLive_iff hcur)) rfl rfl)
      · have hstale : isCurrent s.rgt.slots target = false := by simpa using hcur
        exact (if_pos hstale).trans (if_pos hstale).symm
  refine ⟨fun h => ?amend, fun h => ?retire, fun h => ?restack, fun h => ?lock, ?payloads⟩
  case amend => rw [← hjudged]; exact exec_row_answered h (by decide) rfl
  case retire => rw [← hjudged (some .retire) true]; exact exec_row_answered h (by decide) rfl
  case restack => rw [← hjudged]; exact exec_row_answered h (by decide) rfl
  case lock => rw [← hjudged (some .lock) false]; exact exec_row_answered h (by decide) rfl
  case payloads =>
    intro a addr bit
    refine ⟨fun g => ⟨fun h => readGroup_geometry h, fun h => readGroup_source h, fun h => readGroup_scroll h,
      fun h => readGroup_look h, fun h => ?_, fun h => ?_, fun h => by rw [readGroup_eq_none h]; simp⟩,
      fun h => ?_, fun h => ?_, fun h => readPosition_above h, fun h => readPosition_below h, fun h => readPosition_eq_none h⟩
    · rw [readGroup_cursor h]
      refine or_congr Iff.rfl (and_congr Iff.rfl (exists_congr fun m => ?_))
      cases m <;> exact Iff.rfl
    · rw [readGroup_touch h]
      refine exists_congr fun m => ?_
      cases m <;> exact Iff.rfl
    · rw [readPosition, show (byteAt p 1).toNat = 1 from h]
      rfl
    · rw [readPosition, show (byteAt p 1).toNat = 2 from h]
      rfl

end Sys2Proof.Machine
end

section
/-! PROOFS. The scan's requests, PU's requests and HP's own (R82 to R87, R138, R152, R153, R177 to R180): each answer by its checks in
order, and the bytes of the replies. -/

namespace Sys2Proof.Machine
open Sys2Proof

-- One theorem after another, as in the tests: each thread of its own takes a stack and a heap of the checker's memory.
set_option Elab.async false

section Scan
variable {p : List Byte} {s : State}

/-! ### SET TIMING, READ TIMING, START SCAN and STOP SCAN (R80 to R87) -/

/-- Checks 2 and 3 of R83 are the ranges and relations of R80. -/
theorem fields_iff {t : Timing} : t.fieldsInRange = true ∧ t.fieldsRelate = true ↔
    (t.cellWidth = 8 ∨ t.cellWidth = 16) ∧ 12 ≤ t.totalColumns ∧ t.totalColumns ≤ 255
      ∧ 8 ≤ t.displayedColumns ∧ t.displayedColumns + 4 ≤ t.totalColumns ∧ t.displayedColumns ≤ 200
      ∧ 8 ≤ t.displayedLines ∧ t.displayedLines ≤ 800 ∧ t.displayedLines + 2 ≤ t.totalLines ∧ t.totalLines ≤ 1023
      ∧ 1 ≤ t.fallbackStride ∧ t.fallbackStride ≤ 4095 ∧ t.displayedColumns ≤ t.fallbackStride := by
  simp only [Timing.fieldsInRange, Timing.fieldsRelate, Bool.and_eq_true, Bool.or_eq_true, beq_iff_eq, decide_eq_true_eq]
  tauto

theorem inside_iff {r : Rect} {columns lines : Nat} :
    r.inside columns lines = true ↔ r.left + r.width ≤ columns ∧ r.top + r.height ≤ lines := by
  simp only [Rect.inside, Bool.and_eq_true, decide_eq_true_eq]

theorem setTimingRequest_of_running (h : s.se.scan ≠ .stopped) : setTimingRequest p s = .refuse s .state := if_pos h

theorem setTimingRequest_of_good (h : s.se.scan = .stopped)
    (hgood : (readTimingFields p).fieldsInRange = true ∧ (readTimingFields p).fieldsRelate = true)
    (hold : (readTimingFields p).holdsRegions s.rgt.slots = true) :
    setTimingRequest p s = ⟨s.setSe { s.se with timing := readTimingFields p, timingValid := true }, .done, []⟩ := by
  simp only [setTimingRequest, h, ne_eq, not_true_eq_false, if_false, hgood, hold, Bool.and_self, if_true]

theorem setTimingRequest_of_bad (h : s.se.scan = .stopped)
    (hbad : ¬((readTimingFields p).fieldsInRange = true ∧ (readTimingFields p).fieldsRelate = true)
      ∨ ¬(readTimingFields p).holdsRegions s.rgt.slots = true) :
    setTimingRequest p s = .refuse s .range := by
  simp only [setTimingRequest, h, ne_eq, not_true_eq_false, if_false, Bool.and_eq_true]
  exact if_neg (by tauto)

theorem startScanRequest_of_stopped (h : s.se.scan = .stopped) (hv : s.se.timingValid = true) : startScanRequest p s =
    ⟨s.setSe { s.se with scan := .running, frame := 0, place := .outside, stop := none }, .done, []⟩ := if_pos ⟨h, hv⟩

theorem startScanRequest_refused (h : s.se.scan ≠ .stopped ∨ s.se.timingValid = false) :
    startScanRequest p s = .refuse s .state := by
  refine if_neg ?_
  rintro ⟨hs, hv⟩
  rcases h with h | h
  · exact h hs
  · rw [hv] at h; cases h

theorem stopScanRequest_of_running (h : s.se.scan = .running) : stopScanRequest p s =
    ⟨s.setSe { s.se with scan := .stopping, stop := some s.se.place.stopPlace }, .done, []⟩ := by
  rw [stopScanRequest, h]

/-- The thirteen bytes of the timing set (R84, R187). -/
theorem timingBytes_eq (valid : Bool) (t : Timing) : timingBytes valid t =
    [if valid = true then 1 else 0, BitVec.ofNat 8 t.cellWidth, BitVec.ofNat 8 t.totalColumns,
      BitVec.ofNat 8 t.displayedColumns, BitVec.ofNat 8 (t.totalLines / 256), BitVec.ofNat 8 t.totalLines,
      BitVec.ofNat 8 (t.displayedLines / 256), BitVec.ofNat 8 t.displayedLines,
      t.fallbackBase.extractLsb' 16 8, t.fallbackBase.extractLsb' 8 8, t.fallbackBase.extractLsb' 0 8,
      BitVec.ofNat 8 (t.fallbackStride / 256), BitVec.ofNat 8 t.fallbackStride] := by
  have hvalid : ofBits [valid] = if valid = true then 1 else 0 := by cases valid <;> rfl
  rw [timingBytes, hvalid, putAddr_eq]
  rfl

end Scan

/-- Settles O50, request by request: SET TIMING's checks are `fields_iff` and `holdsRegions_iff`. -/
theorem scanRequests : Obligations.ScanRequests := by
  intro p sdi s a t held good
  have hgood : good ↔ ((readTimingFields p).fieldsInRange = true ∧ (readTimingFields p).fieldsRelate = true)
      ∧ (readTimingFields p).holdsRegions s.rgt.slots = true := by
    rw [fields_iff, holdsRegions_iff]
    simp only [inside_iff, and_assoc]
    exact Iff.rfl
  refine ⟨fun h => ⟨fun hs => ?setState, fun hs hbad => ?setRange, fun hs hg => ?setTaken⟩, fun h => ?read,
    fun h => ⟨fun hs hv => ?start, fun hs => ?startState⟩,
    fun h => ⟨fun hs hp => ?stopInFrame, fun hs hp => ?stopOutside, fun hs => ?stopStopped, fun hs => ?stopState⟩⟩
  case setState => exact exec_row_refused h (by decide) (setTimingRequest_of_running hs)
  case setRange =>
    rw [hgood, not_and_or] at hbad
    exact exec_row_refused h (by decide) (setTimingRequest_of_bad hs hbad)
  case setTaken =>
    obtain ⟨hfields, hold⟩ := hgood.1 hg
    exact exec_row_answered h (by decide) (setTimingRequest_of_good hs hfields hold)
  case read =>
    rw [← timingBytes_eq]
    exact exec_row_answered h (by decide) (rfl : RequestKind.readTiming.owner p s = readTimingRequest p s)
  case start => exact exec_row_answered h (by decide) (startScanRequest_of_stopped (p := p) hs hv)
  case startState => exact exec_row_refused h (by decide) (startScanRequest_refused (p := p) hs)
  case stopInFrame =>
    have hplace : s.se.place.stopPlace = .lastLineEnd := by obtain ⟨y, hy | hy⟩ := hp <;> rw [hy] <;> rfl
    exact exec_row_answered h (by decide) (hplace ▸ stopScanRequest_of_running (p := p) hs)
  case stopOutside =>
    have hplace : s.se.place.stopPlace = .nextFrameStart := by obtain hy | ⟨k, hy⟩ := hp <;> rw [hy] <;> rfl
    exact exec_row_answered h (by decide) (hplace ▸ stopScanRequest_of_running (p := p) hs)
  case stopStopped => exact exec_row_answered (a := ⟨s, .done, []⟩) h (by decide) (by rw [RequestKind.owner, stopScanRequest, hs])
  case stopState => exact exec_row_refused h (by decide) (by rw [RequestKind.owner, stopScanRequest, hs])

/-! ### POINTER SETTINGS, READ TOUCH and PROBE (R138, R152, R153) -/

section Pointer
variable {p : List Byte} {s : State}

/-- A yes/no code (R185). -/
theorem flag1_eq_some_iff {b : Byte} {e : Bool} : flag1 b = some e ↔ (b = 0 ∨ b = 1) ∧ e = decide (b = 1) := by
  by_cases h0 : b = 0
  · subst h0; exact ⟨fun h => ⟨.inl rfl, (Option.some_inj.1 h).symm⟩, fun h => h.2 ▸ rfl⟩
  · by_cases h1 : b = 1
    · subst h1; exact ⟨fun h => ⟨.inr rfl, (Option.some_inj.1 h).symm⟩, fun h => h.2 ▸ rfl⟩
    · rw [flag1, if_neg h0, if_neg h1]
      exact ⟨fun h => (nomatch h), fun h => (h.1.elim h0 h1).elim⟩

theorem flag1_eq_none {b : Byte} (h : b ≠ 0 ∧ b ≠ 1) : flag1 b = none := by
  rw [flag1, if_neg h.1, if_neg h.2]

theorem readPointerSettings_eq_none (h : (byteAt p 0 ≠ 0 ∧ byteAt p 0 ≠ 1) ∨ num1 p 1 = 0 ∨ 15 < num1 p 1) :
    readPointerSettings p = none := by
  rw [Option.eq_none_iff_forall_not_mem]
  rintro ⟨enable, timeout⟩ hp
  obtain ⟨hflag, rfl, hlow, hhigh⟩ := readPointerSettings_eq_some_iff.1 hp
  obtain ⟨hb, -⟩ := flag1_eq_some_iff.1 hflag
  rcases h with ⟨h0, h1⟩ | h | h
  · exact hb.elim h0 h1
  · omega
  · omega

theorem readPointerSettings_of_good (hb : byteAt p 0 = 0 ∨ byteAt p 0 = 1) (hlow : 1 ≤ num1 p 1) (hhigh : num1 p 1 ≤ 15) :
    readPointerSettings p = some (decide (byteAt p 0 = 1), num1 p 1) :=
  readPointerSettings_eq_some_iff.2 ⟨flag1_eq_some_iff.2 ⟨hb, rfl⟩, rfl, hlow, hhigh⟩

theorem pointerSettingsRequest_of_none (hp : readPointerSettings p = none) :
    pointerSettingsRequest p s = .refuse s .range := by
  rw [pointerSettingsRequest, hp]

/-- The pointer stays enabled, is enabled, or stays disabled: the two settings and nothing else (R138). -/
theorem pointerSettingsRequest_of_kept {enable : Bool} {timeout : Nat} (hp : readPointerSettings p = some (enable, timeout))
    (h : ¬(s.pu.enable = true ∧ enable = false)) :
    pointerSettingsRequest p s = ⟨s.setPu { s.pu with enable := enable, timeout := timeout }, .done, []⟩ := by
  simp only [pointerSettingsRequest, hp, if_neg h]

/-- The pointer is disabled: the contact is given up first (R138). -/
theorem pointerSettingsRequest_of_disabled {timeout : Nat} (hp : readPointerSettings p = some (false, timeout))
    (h : s.pu.enable = true) : pointerSettingsRequest p s =
      ⟨(disableContact s).setPu { (disableContact s).pu with enable := false, timeout := timeout }, .done, []⟩ := by
  simp only [pointerSettingsRequest, hp, h, and_self, if_true]

/-- What a cancellation that leaves news does to the touch part (R149). -/
theorem cancelled_true (q : TouchPart) :
    q.cancelled true = { q with state := .idle, news := { q.news with cancel := true } } := by
  rw [TouchPart.cancelled, Bool.or_true]

theorem readTouchRequest_of_some {q : TouchPart} (hcur : isCurrent s.rgt.slots (readHandle p) = true)
    (hq : (slotAt s.rgt.slots (readHandle p).slot).touch = some q) : readTouchRequest p s =
      ⟨s.setSlots (mapTouch s.rgt.slots (readHandle p).slot (·.read)), .done, touchBytes (readHandle p) q⟩ := by
  simp only [readTouchRequest, hcur, if_true, hq]

theorem readTouchRequest_of_none (hcur : isCurrent s.rgt.slots (readHandle p) = true)
    (hq : (slotAt s.rgt.slots (readHandle p).slot).touch = none) : readTouchRequest p s = .refuse s .range := by
  simp only [readTouchRequest, hcur, if_true, hq]

theorem readTouchRequest_of_stale (hcur : isCurrent s.rgt.slots (readHandle p) = false) :
    readTouchRequest p s = .refuse s .stale := by
  simp only [readTouchRequest, hcur, Bool.false_eq_true, if_false]

/-- The news byte of a READ TOUCH reply (R187). -/
theorem ofBits_news : ∀ a b c d : Bool, ofBits [false, false, false, false, a, b, c, d]
    = BitVec.ofNat 8 (8 * a.toNat + 4 * b.toNat + 2 * c.toNat + d.toNat) := by decide

/-- The displayed area, there while the timing set is valid (R81, R136). -/
theorem inArea_iff {q : Point} : inArea s q = true ↔
    s.se.timingValid = true ∧ q.x < s.se.timing.displayedColumns ∧ q.y < s.se.timing.displayedLines := by
  unfold inArea Se.area
  cases s.se.timingValid <;> simp

/-- The two bytes of an entry of a PROBE reply (R187). -/
theorem entryBytes_region (g : Handle) : entryBytes s (.region g) =
    [match (slotAt s.rgt.slots g.slot).record.touchMode with | .none => 0 | .accept => 1 | .block => 2, g.toByte] := by
  rw [entryBytes, Entry.touchMode]
  cases (slotAt s.rgt.slots g.slot).record.touchMode <;> rfl

end Pointer

/-- Settles O51, request by request. -/
theorem pointerRequests : Obligations.PointerRequests := by
  intro p sdi s h enable timeout point inside found
  refine ⟨fun hp => ⟨fun hbad => ?range, fun hb hlow hhigh hkeep => ?kept, fun hb hlow hhigh hon hc => ?disabled,
      fun g hb hlow hhigh hon hc => ?captured⟩,
    fun hp => ⟨fun q hcur hq => ?touch, fun hcur hq => ?touchNone, fun hcur => ?touchStale⟩,
    fun hp => ⟨fun hin => ?probe, fun hout => ?probeRange⟩⟩
  case range => exact exec_row_refused hp (by decide) (pointerSettingsRequest_of_none (readPointerSettings_eq_none hbad))
  case kept =>
    refine exec_row_answered hp (by decide) (pointerSettingsRequest_of_kept (readPointerSettings_of_good hb hlow hhigh) ?_)
    rintro ⟨hon, hoff⟩
    rcases hkeep with hk | hk
    · rw [hon] at hk; cases hk
    · exact absurd (hk.symm.trans hoff) (by decide)
  case disabled =>
    have hread : readPointerSettings p = some (false, timeout) := by
      rw [readPointerSettings_of_good (.inl hb) hlow hhigh, hb]; rfl
    have ha := pointerSettingsRequest_of_disabled hread hon
    rw [disableContact, cancelCapture_of_not_captured hc] at ha
    exact exec_row_answered hp (by decide) ha
  case captured =>
    have hread : readPointerSettings p = some (false, timeout) := by
      rw [readPointerSettings_of_good (.inl hb) hlow hhigh, hb]; rfl
    have ha := pointerSettingsRequest_of_disabled hread hon
    rw [disableContact, cancelCapture_of_captured hc] at ha
    simp only [CancelCause.leavesNews, cancelled_true] at ha
    exact exec_row_answered hp (by decide) ha
  case touch =>
    have ha := readTouchRequest_of_some hcur hq
    rw [touchBytes, ofBits_news] at ha
    have hstate : touchStateByte q.state = match q.state with | .idle => 0 | .pressed => 1 | .pressedAway => 2 := by
      cases q.state <;> rfl
    rw [hstate] at ha
    exact exec_row_answered hp (by decide) ha
  case touchNone => exact exec_row_refused hp (by decide) (readTouchRequest_of_none hcur hq)
  case touchStale => exact exec_row_refused hp (by decide) (readTouchRequest_of_stale hcur)
  case probe =>
    have ha : probeRequest p s = ⟨s, .done, probeBytes s (hitTest s point) found⟩ := if_pos (inArea_iff.2 hin)
    have hentry : entryBytes s = fun e => match e with
        | .region g =>
          [match (slotAt s.rgt.slots g.slot).record.touchMode with | .none => 0 | .accept => 1 | .block => 2, g.toByte]
        | .fallback => [0x82, 0] := by
      funext e
      cases e with
      | region g => exact entryBytes_region g
      | fallback => rfl
    have hhit : hitBytes (hitTest s point)
        = match hitTest s point with | .none => [0, 0] | .hit g => [1, g.toByte] | .blocked => [2, 0] := by
      cases hitTest s point <;> rfl
    rw [probeBytes, hhit, hentry, List.append_assoc] at ha
    exact exec_row_answered hp (by decide) ha
  case probeRange => exact exec_row_refused hp (by decide) (if_neg fun hin => hout (inArea_iff.1 hin))

/-! ### READ STATUS, SET NOTE MASK and SOFT RESET (R177, R179, R180) -/

section Status
variable {p : List Byte} {s : State}

theorem setNoteMaskRequest_of_good (h : ∀ i, i < 3 → byteAt p i = 0 ∨ byteAt p i = 1) : setNoteMaskRequest p s =
    ⟨s.setHp { s.hp with
      mask := ⟨decide (byteAt p 0 = 1), decide (byteAt p 1 = 1), decide (byteAt p 2 = 1)⟩ }, .done, []⟩ := by
  have hflag (i : Nat) (hi : i < 3) : flag1 (byteAt p i) = some (decide (byteAt p i = 1)) := flag1_eq_some_iff.2 ⟨h i hi, rfl⟩
  rw [setNoteMaskRequest, readNoteMask, hflag 0 (by decide), hflag 1 (by decide), hflag 2 (by decide)]

theorem setNoteMaskRequest_of_bad (h : ∃ i, i < 3 ∧ byteAt p i ≠ 0 ∧ byteAt p i ≠ 1) :
    setNoteMaskRequest p s = .refuse s .range := by
  obtain ⟨i, hi, hb⟩ := h
  have hnone : flag1 (byteAt p i) = none := flag1_eq_none hb
  have hmask : readNoteMask p = none := by
    unfold readNoteMask
    split
    · next n o f hn ho hf =>
      interval_cases i
      · rw [hn] at hnone; cases hnone
      · rw [ho] at hnone; cases hnone
      · rw [hf] at hnone; cases hnone
    · rfl
  rw [setNoteMaskRequest, hmask]

/-- The status as its thirteen bytes. -/
theorem statusBytes_eq (s : State) : ∃ captured contact : Byte,
    contactBytes s.pu.contact = [contact, captured] ∧ statusBytes s =
      [scanByte s.se.scan,
        ofBits [s.se.timingValid, s.csu.setState == .pending, s.csu.unread, s.rgt.guardLine == .asserted,
          s.rgt.guardEnable, s.rgt.guardInForce, s.se.fallbackLine == .asserted, s.se.fallbackEffective],
        BitVec.ofNat 8 s.se.frame.toNat, BitVec.ofNat 8 s.csu.changes.length, s.csu.seq, contact, captured,
        causeByte s.pu.lastCause,
        ofBits [false, false, s.pu.linkFault, s.pu.rangeFault, s.hp.cutFault, s.hp.checkFault, s.hp.lengthFault,
          s.hp.unknownFault],
        newsByte s.rgt.slots [31, 30, 29, 28, 27, 26, 25, 24], newsByte s.rgt.slots [23, 22, 21, 20, 19, 18, 17, 16],
        newsByte s.rgt.slots [15, 14, 13, 12, 11, 10, 9, 8], newsByte s.rgt.slots [7, 6, 5, 4, 3, 2, 1, 0]] := by
  unfold statusBytes
  cases s.pu.contact with
  | up | unclaimed => exact ⟨_, _, rfl, rfl⟩
  | captured h => exact ⟨_, _, rfl, rfl⟩

/-- A byte of six bits. -/
theorem ofBits_lt_64 : ∀ c d e f g h : Bool, (ofBits [false, false, c, d, e, f, g, h]).toNat < 64 := by decide

/-- Bit k of a byte of eight bits, bit 7 first. -/
theorem getLsbD_ofBits {l : List Bool} (hl : l.length = 8) {k : Nat} (hk : k < 8) : l[7 - k]? = some ((ofBits l).getLsbD k) := by
  match l, hl with
  | [a, b, c, d, e, f, g, h], _ =>
    obtain ⟨h7, h6, h5, h4, h3, h2, h1, h0⟩ := ofBits_getLsbD a b c d e f g h
    interval_cases k
    all_goals simp only [h7, h6, h5, h4, h3, h2, h1, h0]; rfl

/-- The slots of the four bytes of the news set, bit 7 first (R187). -/
def newsColumns : List (List (Fin 32)) :=
  [[31, 30, 29, 28, 27, 26, 25, 24], [23, 22, 21, 20, 19, 18, 17, 16], [15, 14, 13, 12, 11, 10, 9, 8], [7, 6, 5, 4, 3, 2, 1, 0]]

theorem newsBytes_eq (t : SlotTable) : newsBytes t = newsColumns.map (newsByte t) := rfl

/-- Slot i's place among them: bit i mod 8 of byte 3 − i / 8. -/
theorem newsColumns_slot : ∀ i : Fin 32, ∃ column ∈ newsColumns, newsColumns[3 - i.val / 8]? = some column
    ∧ column[7 - i.val % 8]? = some i ∧ column.length = 8 := by decide

/-- Slot i's bit of the news set (R187): bit i mod 8 of byte 12 − i / 8. -/
theorem news_bit (s : State) (i : Fin 32) {b : Byte} (hb : (statusBytes s)[12 - i.val / 8]? = some b) :
    b.getLsbD (i.val % 8) = (slotAt s.rgt.slots i).hasNews := by
  obtain ⟨captured, contact, -, hbytes⟩ := statusBytes_eq s
  obtain ⟨column, -, hcolumn, hslot, hlen⟩ := newsColumns_slot i
  have hnews : (statusBytes s)[12 - i.val / 8]? = (newsBytes s.rgt.slots)[3 - i.val / 8]? := by
    rw [show 12 - i.val / 8 = (3 - i.val / 8) + 9 by omega, hbytes]
    rfl
  rw [hnews, newsBytes_eq, List.getElem?_map, hcolumn, Option.map_some, Option.some_inj] at hb
  have hbit := getLsbD_ofBits (l := column.map fun j => (slotAt s.rgt.slots j).hasNews) (by simpa using hlen)
    (Nat.mod_lt i.val (by decide : 0 < 8))
  rw [List.getElem?_map, hslot, Option.map_some, Option.some_inj] at hbit
  rw [← hb, newsByte, ← hbit]

end Status

/-- Settles O52: the three requests, then the status byte by byte. -/
theorem statusRequests : Obligations.StatusRequests := by
  intro p sdi s
  obtain ⟨captured, contact, hcontact, hbytes⟩ := statusBytes_eq s
  refine ⟨fun h => ?read, fun h => ⟨fun hmask => ?mask, fun hmask => ?maskRange⟩, fun h => ?soft, ?scan, fun b hb => ?flags,
    ?frame, ?count, ?seq, ?contact, ?captured, ?cause, fun b hb => ?faults, fun i b hb => ?news⟩
  case read => exact exec_row_answered (a := readStatusRequest p s) h (by decide) rfl
  case mask => exact exec_row_answered h (by decide) (setNoteMaskRequest_of_good hmask)
  case maskRange => exact exec_row_refused h (by decide) (setNoteMaskRequest_of_bad hmask)
  case soft => exact exec_row_of_presented h
  case news =>
    rw [news_bit s i hb, Slot.hasNews]
    cases (slotAt s.rgt.slots i).touch <;> rfl
  case scan => rw [hbytes]; cases s.se.scan <;> rfl
  case flags =>
    rw [hbytes] at hb
    cases hb
    obtain ⟨h7, h6, h5, h4, h3, h2, h1, h0⟩ := ofBits_getLsbD s.se.timingValid (s.csu.setState == .pending) s.csu.unread
      (s.rgt.guardLine == .asserted) s.rgt.guardEnable s.rgt.guardInForce (s.se.fallbackLine == .asserted) s.se.fallbackEffective
    exact ⟨h7, h6, h5, h4, h3, h2, h1, h0⟩
  case frame =>
    rw [hbytes]
    exact congrArg some (BitVec.eq_of_toNat_eq (by rw [BitVec.toNat_ofNat, BitVec.toNat_setWidth]))
  case count => rw [hbytes]; rfl
  case seq => rw [hbytes]; rfl
  case contact => rw [hbytes]; cases hc : s.pu.contact <;> rw [hc] at hcontact <;> cases hcontact <;> rfl
  case captured => rw [hbytes]; cases hc : s.pu.contact <;> rw [hc] at hcontact <;> cases hcontact <;> rfl
  case cause =>
    rw [hbytes]
    cases s.pu.lastCause with
    | none => rfl
    | some cause => cases cause <;> rfl
  case faults =>
    rw [hbytes] at hb
    cases hb
    obtain ⟨-, -, h5, h4, h3, h2, h1, h0⟩ := ofBits_getLsbD false false s.pu.linkFault s.pu.rangeFault s.hp.cutFault
      s.hp.checkFault s.hp.lengthFault s.hp.unknownFault
    exact ⟨ofBits_lt_64 _ _ _ _ _ _, h5, h4, h3, h2, h1, h0⟩

end Sys2Proof.Machine
end

section
/-! PROOFS. Change sets: their evaluation, the apply point and the commit notice, the checks of each change and what it does, and the places
of a RESTACK (chapters 1 to 4). -/

namespace Sys2Proof.Machine
open Sys2Proof

-- One theorem after another, as in the tests: each thread of its own takes a stack and a heap of the checker's memory.
set_option Elab.async false

/-! ### Evaluation (R55) -/

section Splits
variable {α : Type} {P : List α → α → Prop} {d : α} {rest : List α}

/-- A property of each element of a list with what stands before it, element by element. -/
theorem forall_split_cons : (∀ (b a : List α) (c : α), d :: rest = b ++ c :: a → P b c) ↔
    P [] d ∧ ∀ (b a : List α) (c : α), rest = b ++ c :: a → P (d :: b) c := by
  refine ⟨fun h => ⟨h [] rest d rfl, fun b a c e => h (d :: b) a c (by rw [e]; rfl)⟩, ?_⟩
  rintro ⟨hd, hrest⟩ b a c e
  cases b with
  | nil => cases e; exact hd
  | cons x b =>
    obtain ⟨rfl, htail⟩ := List.cons.inj e
    exact hrest b a c htail

theorem exists_split_cons : (∃ (b a : List α) (c : α), d :: rest = b ++ c :: a ∧ P b c) ↔
    P [] d ∨ ∃ (b a : List α) (c : α), rest = b ++ c :: a ∧ P (d :: b) c := by
  constructor
  · rintro ⟨b, a, c, e, h⟩
    cases b with
    | nil => cases e; exact .inl h
    | cons x b =>
      obtain ⟨rfl, htail⟩ := List.cons.inj e
      exact .inr ⟨b, a, c, htail, h⟩
  · rintro (h | ⟨b, a, c, e, h⟩)
    · exact ⟨[], rest, d, rfl, h⟩
    · exact ⟨d :: b, a, c, by rw [e]; rfl, h⟩

theorem forall_split_nil : ∀ (b a : List α) (c : α), [] = b ++ c :: a → P b c := by
  intro b a c e
  cases b <;> cases e

end Splits

section Evaluate
variable {guard : Bool} {area : Option (Nat × Nat)}

theorem evaluate_of_fault {w : Working} {c : Change} {rest : List Change} {code : FailCode}
    (h : changeFault guard area w c = some code) : evaluate guard area w (c :: rest) = .failed c.index code := by
  rw [evaluate_cons, h]

theorem evaluate_of_good {w : Working} {c : Change} {rest : List Change} (h : changeFault guard area w c = none) :
    evaluate guard area w (c :: rest) = evaluate guard area (carryOut w c) rest := by
  rw [evaluate_cons, h]

theorem evaluate_eq_passed_iff (w : Working) (changes : List Change) (w' : Working) :
    evaluate guard area w changes = .passed w' ↔ w' = changes.foldl carryOut w
      ∧ ∀ (before after : List Change) (c : Change), changes = before ++ c :: after →
          changeFault guard area (before.foldl carryOut w) c = none := by
  induction changes generalizing w with
  | nil =>
    refine ⟨fun h => ⟨?_, forall_split_nil⟩, fun h => ?_⟩
    · cases h; rfl
    · rw [h.1]; rfl
  | cons c rest ih =>
    rw [forall_split_cons (P := fun b c => changeFault guard area (b.foldl carryOut w) c = none)]
    cases hf : changeFault guard area w c with
    | some code =>
      rw [evaluate_of_fault hf]
      refine ⟨fun h => (nomatch h), fun h => ?_⟩
      have hnone : changeFault guard area w c = none := h.2.1
      rw [hf] at hnone
      cases hnone
    | none =>
      rw [evaluate_of_good hf, ih]
      exact and_congr Iff.rfl ⟨fun h => ⟨hf, h⟩, fun h => h.2⟩

/-- The first change that fails: it does, and those before it do not. -/
def FailsFirst (guard : Bool) (area : Option (Nat × Nat)) (w : Working) (i : Nat) (code : FailCode) (before : List Change)
    (c : Change) : Prop :=
  c.index = i ∧ changeFault guard area (before.foldl carryOut w) c = some code
    ∧ ∀ (b a : List Change) (d : Change), before = b ++ d :: a → changeFault guard area (b.foldl carryOut w) d = none

theorem failsFirst_nil {w : Working} {i : Nat} {code : FailCode} {c : Change} :
    FailsFirst guard area w i code [] c ↔ c.index = i ∧ changeFault guard area w c = some code :=
  and_congr Iff.rfl ⟨fun h => h.1, fun h => ⟨h, forall_split_nil⟩⟩

theorem failsFirst_cons {w : Working} {i : Nat} {code : FailCode} {d c : Change} {before : List Change} :
    FailsFirst guard area w i code (d :: before) c ↔
      changeFault guard area w d = none ∧ FailsFirst guard area (carryOut w d) i code before c := by
  unfold FailsFirst
  rw [forall_split_cons (P := fun b c => changeFault guard area (b.foldl carryOut w) c = none)]
  exact ⟨fun ⟨hi, hc, hd, hb⟩ => ⟨hd, hi, hc, hb⟩, fun ⟨hd, hi, hc, hb⟩ => ⟨hi, hc, hd, hb⟩⟩

theorem evaluate_eq_failed_iff (w : Working) (changes : List Change) (i : Nat) (code : FailCode) :
    evaluate guard area w changes = .failed i code ↔
      ∃ (before after : List Change) (c : Change), changes = before ++ c :: after ∧ FailsFirst guard area w i code before c := by
  induction changes generalizing w with
  | nil =>
    refine ⟨fun h => (nomatch h), ?_⟩
    rintro ⟨before, after, c, e, -⟩
    cases before <;> cases e
  | cons c rest ih =>
    rw [exists_split_cons (P := FailsFirst guard area w i code), failsFirst_nil]
    simp only [failsFirst_cons]
    cases hf : changeFault guard area w c with
    | some found =>
      rw [evaluate_of_fault hf]
      simp
    | none =>
      rw [evaluate_of_good hf, ih]
      simp

/-- Settles O30, by induction on the changes. -/
theorem evaluationStopsAtFirstFailure : Obligations.EvaluationStopsAtFirstFailure :=
  fun _ _ w changes => ⟨evaluate_eq_passed_iff w changes, evaluate_eq_failed_iff w changes⟩

end Evaluate

/-! ### The apply point (R58, R59, R150) -/

section Apply
variable {s : State}

theorem applySet_of_passed {w : Working} (h : evaluate s.rgt.guardInForce s.se.area s.working s.csu.changes = .passed w) :
    applySet s = commitSet w s := by
  rw [applySet, h]

theorem applySet_of_failed {i : Nat} {code : FailCode}
    (h : evaluate s.rgt.guardInForce s.se.area s.working s.csu.changes = .failed i code) :
    applySet s = abandonSet (.rejected i code) s := by
  rw [applySet, h]

/-- A commit notice changes touch parts and the contact only (R150). -/
theorem takeNotice_csu (dropped : List (Fin 32)) (u : State) : (takeNotice dropped u).csu = u.csu := by
  obtain ⟨t, c, m, l, -, h⟩ := takeNotice_repoints dropped u
  rw [h]; rfl

theorem takeNotice_stack (dropped : List (Fin 32)) (u : State) : (takeNotice dropped u).rgt.stack = u.rgt.stack := by
  obtain ⟨t, c, m, l, -, h⟩ := takeNotice_repoints dropped u
  rw [h]; rfl

end Apply

/-- Settles O31: the two ways of `applySet_cases`, each with its parts. -/
theorem applyIsAllOrNothing : Obligations.ApplyIsAllOrNothing := by
  intro s
  have hclosed : ∃ result, (applySet s).csu = s.csu.close result := by
    obtain ⟨t, stack, result, n, contact, silence, cause, h⟩ := applySet_writes s
    exact ⟨result, by rw [h]; rfl⟩
  obtain ⟨result, hcsu⟩ := hclosed
  refine ⟨by rw [hcsu]; rfl, by rw [hcsu]; rfl, by rw [hcsu]; rfl, by rw [hcsu]; rfl, fun w hw => ?_, fun i code hf => ?_⟩
  · rw [applySet_of_passed hw]
    refine ⟨⟨_, rfl⟩, ?_, ?_, fun i => ?_⟩
    · rw [commitSet, takeNotice_csu]; rfl
    · rw [commitSet, takeNotice_stack]; rfl
    · obtain ⟨q, hq⟩ := commitSet_sameRegions w s i
      rw [hq]
      exact ⟨rfl, rfl, rfl⟩
  · rw [applySet_of_failed hf]
    exact ⟨rfl, rfl, rfl, rfl, fun j => slotAt_releaseReservations s.rgt.slots s.csu.changes j⟩

/-! ### The commit notice (R22, R150) -/

section Notice
variable {dropped : List (Fin 32)} {s : State} {h : Handle}

theorem takeNotice_of_cause {cause : CancelCause} (hc : s.pu.contact = .captured h)
    (hn : noticeCause s.rgt.slots dropped h = some cause) : takeNotice dropped s = cancelCapture cause s := by
  rw [takeNotice, hc]
  dsimp only
  rw [hn]

theorem takeNotice_of_none (hc : s.pu.contact = .captured h) (hn : noticeCause s.rgt.slots dropped h = none) :
    takeNotice dropped s = s := by
  rw [takeNotice, hc]
  dsimp only
  rw [hn]

theorem takeNotice_of_not_captured (hc : ∀ h, s.pu.contact ≠ .captured h) : takeNotice dropped s = s := by
  unfold takeNotice
  split
  · next h heq => exact absurd heq (hc h)
  · rfl

theorem noticeCause_of_retired (hcur : isCurrent s.rgt.slots h = false) : noticeCause s.rgt.slots dropped h = some .retired := by
  simp only [noticeCause, hcur, Bool.not_false, if_true]

theorem noticeCause_of_hidden (hcur : isCurrent s.rgt.slots h = true) (hvis : isVisible s.rgt.slots h = false) :
    noticeCause s.rgt.slots dropped h = some .hidden := by
  simp only [noticeCause, hcur, hvis, Bool.not_true, Bool.not_false, Bool.false_eq_true, if_true, if_false]

theorem noticeCause_of_dropped (hcur : isCurrent s.rgt.slots h = true) (hvis : isVisible s.rgt.slots h = true)
    (hd : h.slot ∈ dropped) : noticeCause s.rgt.slots dropped h = some .touchOff := by
  simp only [noticeCause, hcur, hvis, Bool.not_true, Bool.false_eq_true, if_false, List.contains_iff_mem.2 hd, if_true]

theorem noticeCause_of_kept (hcur : isCurrent s.rgt.slots h = true) (hvis : isVisible s.rgt.slots h = true)
    (hd : h.slot ∉ dropped) : noticeCause s.rgt.slots dropped h = none := by
  have hd' : dropped.contains h.slot = false := by simpa using hd
  simp only [noticeCause, hcur, hvis, Bool.not_true, Bool.false_eq_true, if_false, hd']

/-- The causes of a notice leave the contact DOWN_UNCLAIMED, and CANCEL news exactly where the region is still current (R149). -/
theorem cause_of_notice {cause : CancelCause} (hn : noticeCause s.rgt.slots dropped h = some cause) :
    cause.contactAfter = .unclaimed ∧ cause.leavesNews = isCurrent s.rgt.slots h := by
  unfold noticeCause at hn
  cases hcur : isCurrent s.rgt.slots h with
  | false => rw [hcur] at hn; cases hn; exact ⟨rfl, rfl⟩
  | true =>
    rw [hcur, Bool.not_true, if_neg (by decide)] at hn
    split at hn
    · cases hn; exact ⟨rfl, rfl⟩
    · split at hn
      · cases hn; exact ⟨rfl, rfl⟩
      · cases hn

theorem lastCause_takeNotice {cause : CancelCause} (hc : s.pu.contact = .captured h)
    (hn : noticeCause s.rgt.slots dropped h = some cause) : (takeNotice dropped s).pu.lastCause = some cause := by
  rw [takeNotice_of_cause hc hn, cancelCapture_of_captured hc]; rfl

end Notice

/-- Settles O32, cause by cause. -/
theorem commitNoticeCancelsCapture : Obligations.CommitNoticeCancelsCapture := by
  intro dropped s
  refine ⟨fun h hc => ⟨fun hcur => lastCause_takeNotice hc (noticeCause_of_retired hcur),
    fun hcur hvis => lastCause_takeNotice hc (noticeCause_of_hidden hcur hvis),
    fun hcur hvis hd => lastCause_takeNotice hc (noticeCause_of_dropped hcur hvis hd),
    fun hcur hvis hd => takeNotice_of_none hc (noticeCause_of_kept hcur hvis hd), fun hne => ?_⟩, takeNotice_of_not_captured⟩
  cases hn : noticeCause s.rgt.slots dropped h with
  | none => exact absurd (takeNotice_of_none hc hn) hne
  | some cause =>
    obtain ⟨hafter, hnews⟩ := cause_of_notice hn
    rw [takeNotice_of_cause hc hn, cancelCapture_of_captured hc, hafter, hnews]
    exact ⟨rfl, rfl, fun i => slotAt_mapTouch s.rgt.slots h.slot i _⟩

/-! ### The checks at apply (R17, R32, R56, R72, R76) -/

/-- The checks of a target, in order (R56, R72). -/
theorem targetFault_eq (guard : Bool) (w : Working) (h : Handle) : targetFault guard w h =
    if isCurrent w.slots h = false then some .stale
    else if (slotAt w.slots h.slot).record.locked = true then some .locked
    else if guard = true ∧ (slotAt w.slots h.slot).record.cls = .telltale then some .guarded
    else none := by
  simp only [targetFault, classOf, Bool.not_eq_true', Bool.and_eq_true, beq_iff_eq]

/-- A target that fails its checks fails the change; otherwise the further checks are made. -/
theorem or_eq_ite (a b : Option FailCode) : a.or b = if a ≠ none then a else b := by cases a <;> rfl

theorem changeFault_of_judged {guard : Bool} {area : Option (Nat × Nat)} {w : Working} {index : Nat} {h : Handle} {g : Group}
    (hg : g.judged = true) : changeFault guard area w ⟨index, h, .amend g⟩ =
      if targetFault guard w h ≠ none then targetFault guard w h
      else if recordFits area (slotAt (carryOut w ⟨index, h, .amend g⟩).slots h.slot).record = false then some .range
      else none := by
  have hrecord : (slotAt (carryOut w ⟨index, h, .amend g⟩).slots h.slot).record
      = amendRecord g (slotAt w.slots h.slot).record := by
    rw [← amendSlot_record]
    exact congrArg Slot.record (slotAt_putSlot_self _ _ _)
  rw [hrecord, ← or_eq_ite]
  simp only [changeFault, hg, Bool.true_and, Bool.not_eq_true']

theorem changeFault_of_unjudged {guard : Bool} {area : Option (Nat × Nat)} {w : Working} {index : Nat} {h : Handle} {g : Group}
    (hg : g.judged = false) : changeFault guard area w ⟨index, h, .amend g⟩ = targetFault guard w h := by
  simp only [changeFault, hg, Bool.false_and, Bool.false_eq_true, if_false, Option.or_none]

/-- The two positions that name a ref make the same checks of it (R32). -/
theorem refFault_of_ref {w : Working} {h ref : Handle} {p : Position} (hp : p = .above ref ∨ p = .below ref) :
    refFault w h p = if isCurrent w.slots ref = false then some .stale
      else if classOf w.slots ref ≠ (slotAt w.slots h.slot).record.cls then some .band else none := by
  rcases hp with rfl | rfl <;> simp only [refFault, Bool.not_eq_true'] <;> rfl

/-- Settles O33, change by change. -/
theorem applyChecksInOrder : Obligations.ApplyChecksInOrder := by
  intro guard area w index h live record target
  have htarget : targetFault guard w h = target := targetFault_eq guard w h
  refine ⟨htarget, ?lock, fun d => rfl, fun l => ?look, fun m => ?touch, fun g hlook htouch => ?judged, fun p hp => ?band,
    fun p ref hp => ?beside, fun d => recordFits_iff⟩
  case lock =>
    show (if isCurrent w.slots h = true then none else some FailCode.stale) = if live = false then some .stale else none
    cases hcur : isCurrent w.slots h <;> simp [live, hcur]
  case look => rw [changeFault_of_unjudged rfl, htarget]
  case touch => rw [changeFault_of_unjudged rfl, htarget]
  case judged =>
    have hg : g.judged = true := by
      cases g with
      | look l => exact absurd rfl (hlook l)
      | touch m => exact absurd rfl (htouch m)
      | geometry | source | scroll | cursor => rfl
    rw [changeFault_of_judged hg, htarget]
  case band => rcases hp with rfl | rfl <;> exact (Option.or_none).trans htarget
  case beside =>
    have hfault : changeFault guard area w ⟨index, h, .restack p⟩ = (targetFault guard w h).or (refFault w h p) := rfl
    rw [hfault, or_eq_ite, htarget, refFault_of_ref hp]

/-! ### What a change does (R19 to R22, R30, R31, R33, R76) -/

/-- A new region comes to the front of its band (R30). -/
theorem placeNew_eq (t : SlotTable) (stack : List Handle) (c : RegionClass) (h : Handle) : placeNew t stack c h =
    if c = .telltale then h :: stack
    else stack.take (telltaleCount t stack) ++ h :: stack.drop (telltaleCount t stack) := by
  cases c <;> rfl

/-- Settles O34, change by change: the target's slot is the one put, and the other parts are read off. -/
theorem carriedOutChanges : Obligations.CarriedOutChanges := by
  intro w index h x
  refine ⟨fun d => ⟨slotAt_putSlot_self _ _ _, placeNew_eq _ _ _ _⟩, ⟨slotAt_putSlot_self _ _ _, rfl⟩,
    ⟨slotAt_putSlot_self _ _ _, rfl⟩, fun r => slotAt_putSlot_self _ _ _, fun r => slotAt_putSlot_self _ _ _,
    fun base offset => slotAt_putSlot_self _ _ _, fun l => slotAt_putSlot_self _ _ _, fun c => slotAt_putSlot_self _ _ _,
    fun m => slotAt_putSlot_self _ _ _, fun g => rfl, fun p => ⟨rfl, rfl⟩, rfl, fun m => ?touchDrop, fun op hr ht => ?kept,
    fun op => ?free, fun op i hi => slotAt_carryOut_of_ne hi⟩
  case touchDrop =>
    have hdrops : amendDrops (.touch m) x = true ↔ x.touch.isSome = true ∧ m ≠ x.record.touchMode := by
      simp only [amendDrops, Bool.and_eq_true, bne_iff_ne]
    exact if_congr hdrops rfl rfl
  case kept =>
    cases op with
    | retire => exact absurd rfl hr
    | amend g =>
      cases g with
      | touch m => exact absurd rfl (ht m)
      | geometry | source | scroll | look | cursor => rfl
    | create | restack | lock => rfl
  case free => cases op <;> rfl

/-! ### The places of a RESTACK (R31, R189) -/

section Places
variable {l : List Handle} {n : Nat} {a h : Handle}

/-- The place of the handle put in. -/
theorem idxOf_insertAt_self (hl : h ∉ l) (hn : n ≤ l.length) : (insertAt l n h).idxOf h = n := by
  rw [insertAt, List.idxOf_append_of_notMem fun hm => hl (List.mem_of_mem_take hm), List.idxOf_cons_self, List.length_take,
    Nat.min_eq_left hn, Nat.add_zero]

/-- The places of the others: those behind it move up by one. -/
theorem idxOf_insertAt_of_ne (hne : a ≠ h) (hn : n ≤ l.length) :
    (insertAt l n h).idxOf a = if l.idxOf a < n then l.idxOf a else l.idxOf a + 1 := by
  by_cases hm : a ∈ l.take n
  · have hidx : l.idxOf a = (l.take n).idxOf a := by
      conv_lhs => rw [← List.take_append_drop n l]
      exact List.idxOf_append_of_mem hm
    have hlt : (l.take n).idxOf a < n := lt_of_lt_of_le (List.idxOf_lt_length_iff.2 hm) (List.length_take_le _ _)
    rw [insertAt, List.idxOf_append_of_mem hm, if_pos (hidx ▸ hlt), hidx]
  · have hidx : l.idxOf a = (l.drop n).idxOf a + n := by
      conv_lhs => rw [← List.take_append_drop n l]
      rw [List.idxOf_append_of_notMem hm, List.length_take, Nat.min_eq_left hn]; omega
    rw [insertAt, List.idxOf_append_of_notMem hm, List.idxOf_cons_ne _ hne.symm, List.length_take, Nat.min_eq_left hn,
      if_neg (by omega), hidx]
    omega

end Places

section Restack
variable {free : Nat} {t : SlotTable} {stack : List Handle} {target a : Handle} {p : Position}

/-- A place of a band lies in the list. -/
theorem InBand.le_length {rest : List Handle} {c : RegionClass} {n : Nat} (h : InBand t rest c n) : n ≤ rest.length := by
  have := telltaleCount_le t rest
  obtain ⟨-, hback⟩ := h
  cases c <;> simp only [bandBack] at hback <;> omega

/-- A place of a RESTACK lies in the list. -/
theorem restackPlace_le_length (free : Nat) (t : SlotTable) (rest : List Handle) (target : Handle) (p : Position) :
    restackPlace free t rest target p ≤ rest.length := by
  have hcount := telltaleCount_le t rest
  cases p with
  | front => rw [restackPlace]; cases classOf t target <;> simp only [bandFront] <;> omega
  | back => rw [restackPlace]; cases classOf t target <;> simp only [bandBack] <;> omega
  | above ref =>
    rw [restackPlace]
    split
    · next hm => exact (List.idxOf_lt_length_iff.2 hm).le
    · exact (inBand_unplacedPlace _ _ _ _ _ _).le_length
  | below ref =>
    rw [restackPlace]
    split
    · next hm => exact List.idxOf_lt_length_iff.2 hm
    · exact (inBand_unplacedPlace _ _ _ _ _ _).le_length

/-- Where the target stands after a RESTACK. -/
theorem idxOf_restackList_self (hn : stack.Nodup) : (restackList free t stack target p).idxOf target =
    restackPlace free t (stack.erase target) target p := by
  rw [restackList_eq]
  exact idxOf_insertAt_self hn.not_mem_erase (restackPlace_le_length _ _ _ _ _)

/-- Where another handle stands after a RESTACK: ahead of the target's place as before, and otherwise one place on. -/
theorem idxOf_restackList_ahead (hne : a ≠ target)
    (h : (stack.erase target).idxOf a < restackPlace free t (stack.erase target) target p) :
    (restackList free t stack target p).idxOf a = (stack.erase target).idxOf a := by
  rw [restackList_eq, idxOf_insertAt_of_ne hne (restackPlace_le_length _ _ _ _ _), if_pos h]

theorem idxOf_restackList_behind (hne : a ≠ target)
    (h : restackPlace free t (stack.erase target) target p ≤ (stack.erase target).idxOf a) :
    (restackList free t stack target p).idxOf a = (stack.erase target).idxOf a + 1 := by
  rw [restackList_eq, idxOf_insertAt_of_ne hne (restackPlace_le_length _ _ _ _ _),
    if_neg h.not_gt]

/-- The list without the target stays. -/
theorem erase_restackList (hn : stack.Nodup) : (restackList free t stack target p).erase target = stack.erase target := by
  rw [restackList_eq]
  exact erase_insertAt hn.not_mem_erase

/-- A RESTACK reads the list without its target only, so a repeat changes nothing (R189). -/
theorem restackList_restackList (hn : stack.Nodup) :
    restackList free t (restackList free t stack target p) target p = restackList free t stack target p := by
  rw [restackList_eq, erase_restackList hn, ← restackList_eq]

end Restack

/-- Settles O35: each place is that of `restackPlace` on the list without the target, and the bands bound the others'. -/
theorem restackPlaces : Obligations.RestackPlaces := by
  intro free t stack target hn hmem hbands
  have hrest : Banded t (stack.erase target) := Banded.erase hbands target
  have hband {a : Handle} (ha : a ∈ stack) (hne : a ≠ target) :
      InBand t (stack.erase target) (classOf t a) ((stack.erase target).idxOf a)
        ∧ InBand t (stack.erase target) (classOf t a) ((stack.erase target).idxOf a + 1) :=
    hrest.inBand_idxOf ((List.mem_erase_of_ne hne).2 ha)
  refine ⟨fun p => ⟨erase_restackList hn, restackList_perm hmem, restackList_restackList hn⟩, fun a ha hne hc => ?same,
    fun a ha hca hct => ?behindTelltales, fun a ha hca hct => ?aheadOfOrdinary, ?ends, fun ref href hne => ?beside⟩
  case same =>
    obtain ⟨⟨hfront, -⟩, ⟨-, hback⟩⟩ := hband ha hne
    rw [hc] at hfront hback
    have hpfront : restackPlace free t (stack.erase target) target .front ≤ (stack.erase target).idxOf a := hfront
    have hpback : (stack.erase target).idxOf a < restackPlace free t (stack.erase target) target .back := hback
    constructor
    · rw [idxOf_restackList_self hn, idxOf_restackList_behind hne hpfront]
      exact Nat.lt_succ_of_le hpfront
    · rw [idxOf_restackList_self hn, idxOf_restackList_ahead hne hpback]
      exact hpback
  case behindTelltales =>
    have hne : a ≠ target := by rintro rfl; rw [hca] at hct; cases hct
    obtain ⟨-, ⟨-, hback⟩⟩ := hband ha hne
    have hplace : (stack.erase target).idxOf a < restackPlace free t (stack.erase target) target .front := by
      rw [hca] at hback
      rw [restackPlace, hct]
      exact hback
    rw [idxOf_restackList_self hn, idxOf_restackList_ahead hne hplace]
    exact hplace
  case aheadOfOrdinary =>
    have hne : a ≠ target := by rintro rfl; rw [hca] at hct; cases hct
    obtain ⟨⟨hfront, -⟩, -⟩ := hband ha hne
    have hplace : restackPlace free t (stack.erase target) target .back ≤ (stack.erase target).idxOf a := by
      rw [hca] at hfront
      rw [restackPlace, hct]
      exact hfront
    rw [idxOf_restackList_self hn, idxOf_restackList_behind hne hplace]
    exact Nat.lt_succ_of_le hplace
  case ends =>
    simp only [idxOf_restackList_self hn, restackPlace]
    cases classOf t target <;> exact ⟨rfl, rfl⟩
  case beside =>
    have hin : ref ∈ stack.erase target := (List.mem_erase_of_ne hne).2 href
    have habove : restackPlace free t (stack.erase target) target (.above ref) = (stack.erase target).idxOf ref := if_pos hin
    have hbelow : restackPlace free t (stack.erase target) target (.below ref) = (stack.erase target).idxOf ref + 1 := if_pos hin
    constructor
    · rw [idxOf_restackList_self hn, idxOf_restackList_behind hne habove.le, habove]
    · rw [idxOf_restackList_self hn, idxOf_restackList_ahead hne (by omega), hbelow]

end Sys2Proof.Machine
end

section
/-! PROOFS. The dots of a cell, their groups on DOUT, and the addresses of the cells LC issues (chapters 6 and 7). -/

namespace Sys2Proof.Machine
open Sys2Proof

-- One theorem after another, as in the tests: each thread of its own takes a stack and a heap of the checker's memory.
set_option Elab.async false

/-! ### Dots (R120 to R131) -/

section Dots
variable {width : Nat} {frame : BitVec 6} {x : Cell} {i : Nat}

theorem patternDots_getElem? (pattern : BitVec 16) (hi : i < width) :
    (patternDots width pattern)[i]? = some (pattern.getLsbD (width - 1 - i)) := by
  rw [patternDots, List.getElem?_map, List.getElem?_range hi, Option.map_some]

/-- The base dot of a TEXT cell (R122): fill, blank, the hidden phase of the cell blink, or the pattern. -/
theorem baseDots_text (hk : x.kind = .text) (hi : i < width) : (baseDots width frame x)[i]? = some
    (if x.attr.getLsbD 7 = true then true
      else if x.attr.getLsbD 6 = true then false
      else if x.attr.getLsbD 5 = true ∧ x.blinkEnable = true ∧ 32 ≤ frame.toNat then false
      else x.pattern.getLsbD (width - 1 - i)) := by
  have hflat (b : Bool) : (List.replicate width b)[i]? = some b := by rw [List.getElem?_replicate, if_pos hi]
  simp only [baseDots, hk, Cell.fill, Cell.blank, Cell.blink, Bool.and_eq_true, blinkHidden_eq_true_iff, and_assoc]
  split
  · exact hflat true
  · split
    · exact hflat false
    · split
      · exact hflat false
      · exact patternDots_getElem? _ hi

/-- The cursor's inversion of a TEXT cell (R125, R126, R127). -/
theorem cursorInverts_iff (hk : x.kind = .text) : cursorInverts frame x = true ↔
    ∃ c, x.cursor = some c ∧ x.address = c.address ∧ c.firstRaster ≤ x.raster.toNat
      ∧ x.raster.toNat ≤ c.lastRaster ∧ x.raster.toNat ≤ x.cellHeight - 1 ∧ cursorOn frame c.mode = true := by
  cases hc : x.cursor with
  | none => simp [cursorInverts, hc]
  | some c =>
    simp only [cursorInverts, hc, cursorPresent, hk, Bool.and_eq_true, beq_iff_eq, decide_eq_true_eq, Nat.le_min, true_and,
      Option.some.injEq, exists_eq_left', and_assoc]

/-- Three inversions combined by count (R128). -/
theorem odd_of_three : ∀ a b c : Bool, ((a != b) != c) = decide ((a.toNat + b.toNat + c.toNat) % 2 = 1) := by decide

/-- A dot inverted or not. -/
theorem bne_decide (d : Bool) (P : Prop) [Decidable P] : (d != decide P) = if P then !d else d := by
  by_cases h : P <;> simp [h]

/-- A dot of a cell is its base dot, inverted or not (R128). -/
theorem resolve_getElem? (width : Nat) (frame : BitVec 6) (x : Cell) (i : Nat) :
    (resolve width frame x)[i]? = (baseDots width frame x)[i]?.map fun d => d != inverted frame x :=
  List.getElem?_map

theorem bne_eq_ite (d b : Bool) : (d != b) = if b = true then !d else d := by cases b <;> simp

end Dots

/-- The first group of four dots, DOUT[3] carrying the leftmost (R132). -/
theorem group_bits : ∀ (a b c d : Bool) (g : BitVec 4),
    g = BitVec.ofBool a ++ BitVec.ofBool b ++ BitVec.ofBool c ++ BitVec.ofBool d →
      a = g.getLsbD 3 ∧ b = g.getLsbD 2 ∧ c = g.getLsbD 1 ∧ d = g.getLsbD 0 := by decide

/-- The groups of the dots, four by four (R132). -/
theorem groupDots_getElem? : ∀ (dots : List Bool) (i : Nat) (g : BitVec 4), (groupDots dots)[i]? = some g →
    dots[4 * i]? = some (g.getLsbD 3) ∧ dots[4 * i + 1]? = some (g.getLsbD 2)
      ∧ dots[4 * i + 2]? = some (g.getLsbD 1) ∧ dots[4 * i + 3]? = some (g.getLsbD 0)
  | a :: b :: c :: d :: rest, 0, g, h => by
    obtain ⟨ha, hb, hc, hd⟩ := group_bits a b c d g (Option.some_inj.1 h).symm
    rw [← ha, ← hb, ← hc, ← hd]
    exact ⟨rfl, rfl, rfl, rfl⟩
  | a :: b :: c :: d :: rest, i + 1, g, h => groupDots_getElem? rest i g h
  | [], _, _, h => by cases h
  | [_], _, _, h => by cases h
  | [_, _], _, _, h => by cases h
  | [_, _, _], _, _, h => by cases h

/-- Settles O37: each dot by its cell's kind, and the groups by `groupDots_getElem?`. -/
theorem dotsOfACell : Obligations.DotsOfACell := by
  refine ⟨fun width frame x i hi => ?_, fun dots hdots => ⟨?_, groupDots_getElem? dots⟩⟩
  · intro pattern text cursor count
    have hdot (d : Bool) (hd : (baseDots width frame x)[i]? = some d) :
        (resolve width frame x)[i]? = some (d != inverted frame x) := by
      rw [resolve_getElem?, hd, Option.map_some]
    refine ⟨resolve_length width frame x, fun hk => ?text, fun hk => ?bitmap, fun hk => ?fallback, fun hk => ?background⟩
    case text =>
      have hcursor : cursorInverts frame x = cursor := by
        rw [Bool.eq_iff_iff, cursorInverts_iff hk, decide_eq_true_iff]
      have hinverted : inverted frame x = decide (count % 2 = 1) := by
        simp only [inverted, hk, hcursor]
        exact odd_of_three _ _ _
      rw [hdot _ (baseDots_text hk hi), hinverted, bne_decide]
    case bitmap =>
      rw [hdot pattern (by simp only [baseDots, hk]; exact patternDots_getElem? _ hi), bne_eq_ite]
      simp only [inverted, hk]
    case fallback =>
      rw [hdot pattern (by simp only [baseDots, hk]; exact patternDots_getElem? _ hi), bne_eq_ite]
      simp only [inverted, hk, Bool.false_eq_true, if_false]
    case background =>
      rw [hdot false (by simp only [baseDots, hk]; rw [List.getElem?_replicate, if_pos hi])]
      simp only [inverted, hk, bne_self_eq_false]
  · rw [groupDots_length]
    exact Nat.div_mul_cancel (Nat.dvd_of_mod_eq_zero hdots)

/-! ### Addresses (R104 to R111) -/

/-- The raster of a cell of a grid of at most 32 lines a cell (R106). -/
theorem toNat_textRaster {r : RegionRecord} {y : Nat} (hlow : 1 ≤ r.source.cellHeight) (hhigh : r.source.cellHeight ≤ 32) :
    (textRaster r y).toNat = gridLine r y % r.source.cellHeight ∧ (textRaster r y).toNat ≤ r.source.cellHeight - 1 := by
  have hlt : gridLine r y % r.source.cellHeight < r.source.cellHeight := Nat.mod_lt _ hlow
  have hnat : (textRaster r y).toNat = gridLine r y % r.source.cellHeight := by
    rw [textRaster, BitVec.toNat_ofNat]
    exact Nat.mod_eq_of_lt (by omega)
  exact ⟨hnat, by omega⟩

/-- Settles O38, owner by owner. -/
theorem cellAddresses : Obligations.CellAddresses := by
  intro s c y pdata adata
  refine ⟨fun h => ?_, ⟨rfl, rfl, rfl, rfl, BitVec.toNat_ofNat _ _⟩, rfl, rfl, rfl, rfl⟩
  rintro r cell ⟨-, -, htext, -⟩ -
  cases hk : r.source.kind with
  | text =>
    have hcell : cell = ⟨.text, true, textAddress r c y, textRaster r y, r.look.reverse, r.look.blinkEnable, r.cursor,
        r.source.cellHeight, pdata, adata⟩ := by
      simp only [cell, cellOf]
      rw [show (slotAt s.rgt.slots h.slot).record.source.kind = .text from hk]
    obtain ⟨hlow, hhigh, -⟩ := htext hk
    obtain ⟨hraster, hle⟩ := toNat_textRaster (r := r) (y := y) hlow hhigh
    rw [hcell]
    exact ⟨rfl, rfl, fun _ => ⟨rfl, rfl, rfl, rfl, rfl, rfl, BitVec.toNat_ofNat _ _, hraster, hle⟩, fun hb => (nomatch hb)⟩
  | bitmap =>
    have hcell : cell = ⟨.bitmap, true, bitmapAddress r c y, 0, r.look.reverse, r.look.blinkEnable, none, 0, pdata, 0⟩ := by
      simp only [cell, cellOf]
      rw [show (slotAt s.rgt.slots h.slot).record.source.kind = .bitmap from hk]
    rw [hcell]
    exact ⟨rfl, rfl, fun ht => (nomatch ht), fun _ => ⟨rfl, rfl, rfl, rfl, rfl, BitVec.toNat_ofNat _ _⟩⟩

end Sys2Proof.Machine
end

section
/-! PROOFS. The happenings of the scan and PU's tick (chapters 5 to 8): what each row does where its event falls, and that it is refused
where it does not. -/

namespace Sys2Proof.Machine
open Sys2Proof

-- One theorem after another, as in the tests: each thread of its own takes a stack and a heap of the checker's memory.
set_option Elab.async false

/-! ### The rows of the scan (R85 to R92) -/

section Rows
variable {s : State} {order : FrameOrder} {data : CellData} {groups : Nat}

theorem exec_frameStart_of_stopped (hd : s.hp.softResetDue = false) (hs : s.se.scan = .stopped) :
    exec (.frameStart order) s = .next s.judgeNote := by
  show execFrameStart order s = done s
  simp only [execFrameStart, State.settled_of_not_due hd, hs]

theorem exec_frameStart_of_frame (hd : s.hp.softResetDue = false) (hs : s.se.scan = .running) {frame : BitVec 6}
    (hf : s.se.nextFrame = some frame) :
    exec (.frameStart order) s = .next (applyIfPending (frameOpened order frame s)).judgeNote := by
  show execFrameStart order s = _
  rw [execFrameStart_of_running hd hs, hf]
  rfl

theorem exec_frameStart_refused (hd : s.hp.softResetDue = false) (hs : s.se.scan ≠ .stopped)
    (h : s.se.scan = .stopping ∨ s.se.nextFrame = none) : exec (.frameStart order) s = .refused .happeningOutOfPlace := by
  show execFrameStart order s = _
  cases hscan : s.se.scan with
  | stopped => exact absurd hscan hs
  | stopping => simp only [execFrameStart, State.settled_of_not_due hd, hscan]
  | running =>
    have hf : s.se.nextFrame = none := h.resolve_left (by simp [hscan])
    rw [execFrameStart_of_running hd hscan, hf]

theorem exec_retraceLine_of_stopped (hd : s.hp.softResetDue = false) (hs : s.se.scan = .stopped) :
    exec .retraceLine s = .next s.judgeNote := by
  show execRetraceLine s = done s
  simp only [execRetraceLine, State.settled_of_not_due hd, hs, if_true]

theorem exec_retraceLine_of_retrace (hd : s.hp.softResetDue = false) (hs : s.se.scan ≠ .stopped) {k : Nat}
    (hp : s.se.place = .retrace k) (hk : k < s.se.timing.retraceLines) (hstop : s.se.stop ≠ some .lastLineEnd) :
    exec .retraceLine s = .next ((s.setSe { s.se with place := .retrace (k + 1) }).idlePins [] false false).judgeNote := by
  show execRetraceLine s = done _
  simp only [execRetraceLine, State.settled_of_not_due hd, if_neg hs, hp, if_pos (And.intro hk hstop)]

theorem exec_retraceLine_refused (hd : s.hp.softResetDue = false) (hs : s.se.scan ≠ .stopped)
    (h : ∀ k, s.se.place = .retrace k → ¬(k < s.se.timing.retraceLines ∧ s.se.stop ≠ some .lastLineEnd)) :
    exec .retraceLine s = .refused .happeningOutOfPlace := by
  show execRetraceLine s = _
  simp only [execRetraceLine, State.settled_of_not_due hd, if_neg hs]
  cases hp : s.se.place with
  | retrace k => simp only [if_neg (h k hp)]
  | outside | before y | inLine y => rfl

theorem exec_stopPoint_of_stopped (hd : s.hp.softResetDue = false) (hs : s.se.scan = .stopped) :
    exec .stopPoint s = .next s.judgeNote := by
  show execStopPoint s = done s
  simp only [execStopPoint, State.settled_of_not_due hd, hs]

theorem exec_stopPoint_of_at (hd : s.hp.softResetDue = false) (hs : s.se.scan = .stopping) (hat : s.se.atStopPoint = true) :
    exec .stopPoint s = .next (applyIfPending (scanEnded s)).judgeNote := by
  show execStopPoint s = done _
  simp only [execStopPoint, State.settled_of_not_due hd, hs, hat, if_true]
  rfl

theorem exec_stopPoint_refused (hd : s.hp.softResetDue = false) (hs : s.se.scan ≠ .stopped)
    (h : s.se.scan = .running ∨ s.se.atStopPoint = false) : exec .stopPoint s = .refused .happeningOutOfPlace := by
  show execStopPoint s = _
  cases hscan : s.se.scan with
  | stopped => exact absurd hscan hs
  | running => simp only [execStopPoint, State.settled_of_not_due hd, hscan]
  | stopping =>
    have hat : s.se.atStopPoint = false := h.resolve_left (by simp [hscan])
    simp only [execStopPoint, State.settled_of_not_due hd, hscan, hat, Bool.false_eq_true, if_false]

/-- Where the stop point falls (R87, R92). -/
theorem atStopPoint_iff {e : Se} : e.atStopPoint = true ↔
    (e.stop = some .lastLineEnd ∧ e.place = .retrace 0)
      ∨ (e.stop = some .nextFrameStart ∧ (e.place = .outside ∨ e.place = .retrace e.timing.retraceLines)) := by
  unfold Se.atStopPoint
  cases hs : e.stop with
  | none => simp
  | some p => cases p <;> cases hp : e.place <;> simp

theorem exec_lineStart_of_stopped (hd : s.hp.softResetDue = false) (hs : s.se.scan = .stopped) :
    exec .lineStart s = .next s.judgeNote := by
  show execLineStart s = done s
  simp only [execLineStart, State.settled_of_not_due hd, hs, if_true]

theorem exec_lineStart_of_before (hd : s.hp.softResetDue = false) (hs : s.se.scan ≠ .stopped) {y : Nat}
    (hp : s.se.place = .before y) (hto : s.se.tickOwed = false) : exec .lineStart s =
      .next ((((s.setSe { s.se with place := .inLine y }).setLc ⟨spanList s y, 0⟩).setPanel
        { s.panel with shifted := [] }).setPins { s.pins with dots := [], lsync := false, fsync := false }).judgeNote := by
  show execLineStart s = done _
  simp only [execLineStart, State.settled_of_not_due hd, if_neg hs, hp, hto, Bool.false_eq_true, if_false]

theorem exec_lineStart_refused (hd : s.hp.softResetDue = false) (hs : s.se.scan ≠ .stopped)
    (h : ∀ y, s.se.place = .before y → s.se.tickOwed = true) : exec .lineStart s = .refused .happeningOutOfPlace := by
  show execLineStart s = _
  simp only [execLineStart, State.settled_of_not_due hd, if_neg hs]
  cases hp : s.se.place with
  | before y => simp only [h y hp, if_true]
  | outside | inLine y | retrace k => rfl

theorem exec_cellIssue_of_stopped (hd : s.hp.softResetDue = false) (hs : s.se.scan = .stopped) :
    exec (.cellIssue data groups) s = .next s.judgeNote := by
  show execCellIssue data groups s = done s
  simp only [execCellIssue, State.settled_of_not_due hd, hs, if_true]

theorem exec_cellIssue_of_column (hd : s.hp.softResetDue = false) (hs : s.se.scan ≠ .stopped) {y : Nat}
    (hp : s.se.place = .inLine y) (hc : s.lc.column < s.se.timing.displayedColumns) : exec (.cellIssue data groups) s =
      .next (((shiftOut (s.groupsLeft ++ (s.cellGroups (nextCell s y data)).take groups) (issueCell (nextCell s y data) s)).setCou
        (couAfter s (nextCell s y data) groups)).setLc { s.lc with column := s.lc.column + 1 }).judgeNote := by
  show execCellIssue data groups s = done _
  simp only [execCellIssue, State.settled_of_not_due hd, if_neg hs, hp, if_pos hc]
  rfl

theorem exec_cellIssue_refused (hd : s.hp.softResetDue = false) (hs : s.se.scan ≠ .stopped)
    (h : ∀ y, s.se.place = .inLine y → ¬s.lc.column < s.se.timing.displayedColumns) :
    exec (.cellIssue data groups) s = .refused .happeningOutOfPlace := by
  show execCellIssue data groups s = _
  simp only [execCellIssue, State.settled_of_not_due hd, if_neg hs]
  cases hp : s.se.place with
  | inLine y => simp only [if_neg (h y hp)]
  | outside | before y | retrace k => rfl

theorem exec_lineEnd_of_stopped (hd : s.hp.softResetDue = false) (hs : s.se.scan = .stopped) :
    exec .lineEnd s = .next s.judgeNote := by
  show execLineEnd s = done s
  simp only [execLineEnd, State.settled_of_not_due hd, hs, if_true]

theorem exec_lineEnd_of_column (hd : s.hp.softResetDue = false) (hs : s.se.scan ≠ .stopped) {y : Nat}
    (hp : s.se.place = .inLine y) (hc : s.lc.column = s.se.timing.displayedColumns) : exec .lineEnd s =
      .next (((((s.setSe { s.se with place := s.se.timing.afterLine y }).setLc ⟨[], 0⟩).setCou ⟨none, 0⟩).setPanel
        ⟨s.panel.shifted ++ s.groupsLeft, s.panel.shifted ++ s.groupsLeft⟩).idlePins s.groupsLeft true false).judgeNote := by
  show execLineEnd s = done _
  simp only [execLineEnd, State.settled_of_not_due hd, if_neg hs, hp, if_pos hc]

theorem exec_lineEnd_refused (hd : s.hp.softResetDue = false) (hs : s.se.scan ≠ .stopped)
    (h : ∀ y, s.se.place = .inLine y → s.lc.column ≠ s.se.timing.displayedColumns) :
    exec .lineEnd s = .refused .happeningOutOfPlace := by
  show execLineEnd s = _
  simp only [execLineEnd, State.settled_of_not_due hd, if_neg hs]
  cases hp : s.se.place with
  | inLine y => simp only [if_neg (h y hp)]
  | outside | before y | retrace k => rfl

end Rows

theorem applyIfPending_of_opened {s : State} (h : s.csu.setState = .opened) : applyIfPending s = s := if_neg (by simp [h])

theorem applyIfPending_of_pending {s : State} (h : s.csu.setState = .pending) : applyIfPending s = applySet s := if_pos h

/-! ### A frame start (R53, R88, R89) -/

theorem nextFrame_of_place {e : Se} {frame : BitVec 6} (h : (e.place = .outside ∧ frame = e.frame)
    ∨ (e.place = .retrace (e.timing.totalLines - e.timing.displayedLines) ∧ frame = e.frame + 1)) : e.nextFrame = some frame := by
  rcases h with ⟨hp, rfl⟩ | ⟨hp, rfl⟩
  · rw [Se.nextFrame, hp]
  · rw [Se.nextFrame, hp]
    exact if_pos rfl

/-- Settles O53: the frame is opened in the row's order, and then a PENDING set is applied. -/
theorem frameStartOpensAFrame : Obligations.FrameStartOpensAFrame := by
  intro s hd
  refine ⟨fun order hs => exec_frameStart_of_stopped hd hs, fun frame hs hplace => ?_⟩
  refine ⟨Config.idleMaddr s.freeReads, Config.idleRast s.freeReads, Config.idleDout s.freeReads, ?_⟩
  intro u
  have hrow (order : FrameOrder) : exec (.frameStart order) s = .next (applyIfPending (frameOpened order frame s)).judgeNote :=
    exec_frameStart_of_frame hd hs (nextFrame_of_place hplace)
  have hcsu (order : FrameOrder) : (frameOpened order frame s).csu = s.csu := (frameOpened_keeps order frame s).2
  refine ⟨fun hset => ?_, fun hset => ?_⟩
  · have hopen (order : FrameOrder) : (frameOpened order frame s).csu.setState = .opened := by rw [hcsu, hset]
    rw [hrow, hrow, applyIfPending_of_opened (hopen _), applyIfPending_of_opened (hopen _)]
    exact ⟨rfl, rfl⟩
  · have hpending (order : FrameOrder) : (frameOpened order frame s).csu.setState = .pending := by rw [hcsu, hset]
    rw [hrow, hrow, applyIfPending_of_pending (hpending _), applyIfPending_of_pending (hpending _)]
    exact ⟨rfl, rfl⟩

/-! ### PU's tick (R146, R148, R149) -/

section Tick
variable {s : State}

theorem exec_pointerTick_of_owed (hd : s.hp.softResetDue = false) (hto : s.se.tickOwed = true) :
    exec .pointerTick s = .next (takeTick s).judgeNote := by
  show execPointerTick s = done _
  simp only [execPointerTick, State.settled_of_not_due hd, hto, if_true]

theorem exec_contactTimeout_of_owed (hd : s.hp.softResetDue = false) (hto : s.se.tickOwed = true)
    (h : tickTimesOut s.pu = true) : exec .contactTimeout s = .next (takeTick s).judgeNote := by
  show execContactTimeout s = done _
  simp only [execContactTimeout, State.settled_of_not_due hd, hto, h, if_true]

theorem exec_contactTimeout_of_short (hd : s.hp.softResetDue = false) (hto : s.se.tickOwed = true)
    (h : tickTimesOut s.pu = false) : exec .contactTimeout s = .refused .timeoutNotReached := by
  show execContactTimeout s = _
  simp only [execContactTimeout, State.settled_of_not_due hd, hto, h, if_true, Bool.false_eq_true, if_false]

theorem tickTimesOut_iff {p : Pu} : tickTimesOut p = true ↔ p.contact ≠ .up ∧ p.timeout ≤ p.silence + 1 := by
  simp only [tickTimesOut, Bool.and_eq_true, decide_eq_true_eq]

/-- Both rows of a tick that reaches the timeout are that tick (log entry 7). -/
theorem exec_tick_of_timeout (hd : s.hp.softResetDue = false) (hto : s.se.tickOwed = true) (hdown : s.pu.contact ≠ .up)
    (ht : s.pu.timeout ≤ s.pu.silence + 1) {c : Instr} (hc : c = .pointerTick ∨ c = .contactTimeout) :
    exec c s = .next (takeTick s).judgeNote := by
  rcases hc with rfl | rfl
  · exact exec_pointerTick_of_owed hd hto
  · exact exec_contactTimeout_of_owed hd hto (tickTimesOut_iff.2 ⟨hdown, ht⟩)

theorem takeTick_pins (s : State) : (takeTick s).pins = s.pins := by
  obtain ⟨u, ⟨t, contact, n, l, -, rfl⟩, heq⟩ := takeTick_repoints s
  rw [heq]; rfl

theorem mapTouch_cancelled (t : SlotTable) (i : Fin 32) : mapTouch t i (·.cancelled true)
    = mapTouch t i fun q => { q with state := .idle, news := { q.news with cancel := true } } := by
  simp only [cancelled_true]

end Tick

/-- Settles O54, contact state by contact state. -/
theorem tickAdvancesSilenceAndJudgesCapture : Obligations.TickAdvancesSilenceAndJudgesCapture := by
  intro s hd hto u cancelled
  have htick : exec .pointerTick s = .next (takeTick s).judgeNote := exec_pointerTick_of_owed hd hto
  refine ⟨⟨htick, takeTick_pins s⟩, fun hc => ?up, fun hc ht => ?unclaimed, fun hc ht c hrow => ?abandoned,
    fun h hc ht c hrow => ?timeout, fun h hc ht hf hcls => ?fallback, fun h hc ht hkeep => ?kept, fun hshort => ?short⟩
  case up => rw [htick, takeTick_of_up hc]
  case unclaimed => rw [htick, takeTick_of_unclaimed hc, if_neg (by omega)]; rfl
  case abandoned =>
    rw [exec_tick_of_timeout hd hto (by simp [hc]) ht hrow, takeTick_of_unclaimed hc, if_pos ht]; rfl
  case timeout =>
    rw [exec_tick_of_timeout hd hto (by simp [hc]) ht hrow, takeTick_of_captured hc, if_pos ht, mapTouch_cancelled]; rfl
  case fallback =>
    rw [htick, takeTick_of_captured hc, if_neg (by omega), if_pos ⟨hf, hcls⟩, mapTouch_cancelled]; rfl
  case kept =>
    have hnot : ¬(s.se.fallbackEffective = true ∧ classOf s.rgt.slots h = .ordinary) := by
      rintro ⟨hf, hcls⟩
      rcases hkeep with hk | hk
      · rw [hf] at hk; cases hk
      · rw [hcls] at hk; cases hk
    rw [htick, takeTick_of_captured hc, if_neg (by omega), if_neg hnot]; rfl
  case short =>
    refine exec_contactTimeout_of_short hd hto ?_
    rw [Bool.eq_false_iff, ne_eq, tickTimesOut_iff]
    rintro ⟨hdown, ht⟩
    rcases hshort with h | h
    · exact hdown h
    · omega

/-! ### A displayed line (R90, R99, R104, R119, R132) -/

/-- Cells of 8 or 16 dots leave in whole groups of four (R80, R132). -/
theorem State.Laws.groups_fill {s : State} (h : s.Laws) (hs : s.se.scan ≠ .stopped) (x : Cell) :
    (s.cellGroups x).length * 4 = s.se.timing.cellWidth := by
  have hvalid : s.se.timingValid = true := by
    obtain ⟨-, -, -, hv, -⟩ := h.scan
    exact hv hs
  obtain ⟨hwidth, -⟩ := fields_iff.1 (h.timing hvalid)
  rw [State.cellGroups_length]
  rcases hwidth with hw | hw <;> rw [hw]

/-- Settles O55: the line's start, each cell and the line's end. -/
theorem lineIsComposedCellByCell : Obligations.LineIsComposedCellByCell := by
  intro s y hd hs groupsOf left
  have hleft : left = s.groupsLeft := by
    cases hc : s.cou.cell with
    | none => simp only [left, hc, State.groupsLeft_of_none hc]
    | some x => simp only [left, hc, State.groupsLeft_of_some hc]; rfl
  refine ⟨fun hp hto => exec_lineStart_of_before hd hs hp hto, fun pdata adata n hinv hp hcol => ?cell, fun hp hcol => ?lineEnd⟩
  case cell =>
    intro owner cell out
    refine ⟨hinv.laws.groups_fill hs cell, ?_⟩
    have hout : out = s.groupsLeft ++ (s.cellGroups cell).take n := by rw [← hleft]; rfl
    rw [exec_cellIssue_of_column hd hs hp hcol, nextCell_eq hinv.laws.line hp hcol, hout]
    rfl
  case lineEnd =>
    refine ⟨Config.idleMaddr s.freeReads, Config.idleRast s.freeReads, Config.idleDout s.freeReads, ?_⟩
    rw [exec_lineEnd_of_column hd hs hp hcol, hleft]
    rfl

/-! ### The retrace and the stop point (R53, R87, R91, R92) -/

/-- Settles O56: a retrace line moves the place on, and the stop point ends the scan before a PENDING set is applied. -/
theorem retraceAndStopPoint : Obligations.RetraceAndStopPoint := by
  intro s hd idle
  refine ⟨fun k hs hp hk hstop => ?_, fun hs hat => ?_⟩
  · exact ⟨Config.idleMaddr s.freeReads, Config.idleRast s.freeReads, Config.idleDout s.freeReads,
      exec_retraceLine_of_retrace hd hs hp hk hstop⟩
  · refine ⟨Config.idleMaddr s.freeReads, Config.idleRast s.freeReads, Config.idleDout s.freeReads, fun hset => ?_, fun hset => ?_⟩
    · rw [exec_stopPoint_of_at hd hs (atStopPoint_iff.2 hat), applyIfPending_of_opened (s := scanEnded s) hset]; rfl
    · rw [exec_stopPoint_of_at hd hs (atStopPoint_iff.2 hat), applyIfPending_of_pending (s := scanEnded s) hset]; rfl

end Sys2Proof.Machine
end

section
/-! PROOFS. The pointer link: the receiver's characters, the judgement of a report and what a taken report does (chapter 8); and the rows
that are not the event the state brings (log entry 3). -/

namespace Sys2Proof.Machine
open Sys2Proof

-- One theorem after another, as in the tests: each thread of its own takes a stack and a heap of the checker's memory.
set_option Elab.async false

/-! ### Characters (R135, R188) -/

section Characters
variable {s : State} {ch : PrxChar}

theorem exec_characterKept_of_kept (hd : s.hp.softResetDue = false) {r : Receiver} (h : s.pu.receiver.on ch = .kept r) :
    exec (.pointerCharacterKept ch.bits) s = .next (s.setPu { s.pu with receiver := r }).judgeNote := by
  show execPointerCharacterKept ch.bits s = done _
  simp only [execPointerCharacterKept, State.settled_of_not_due hd, readCharacter_bits, h]

theorem exec_characterKept_refused (hd : s.hp.softResetDue = false) (h : ∀ r, s.pu.receiver.on ch ≠ .kept r) :
    exec (.pointerCharacterKept ch.bits) s = .refused .characterNotKept := by
  show execPointerCharacterKept ch.bits s = _
  simp only [execPointerCharacterKept, State.settled_of_not_due hd, readCharacter_bits]
  cases hon : s.pu.receiver.on ch with
  | kept r => exact absurd hon (h r)
  | faulted r | completes bytes => rfl

theorem exec_linkFault_of_faulted (hd : s.hp.softResetDue = false) {r : Receiver} (h : s.pu.receiver.on ch = .faulted r) :
    exec (.pointerLinkFault ch.bits) s =
      .next (s.setPu { s.pu with receiver := r, linkFault := s.pu.linkFault || s.pu.enable }).judgeNote := by
  show execPointerLinkFault ch.bits s = done _
  simp only [execPointerLinkFault, State.settled_of_not_due hd, readCharacter_bits, h]
  rfl

theorem exec_linkFault_refused (hd : s.hp.softResetDue = false) (h : ∀ r, s.pu.receiver.on ch ≠ .faulted r) :
    exec (.pointerLinkFault ch.bits) s = .refused .characterKept := by
  show execPointerLinkFault ch.bits s = _
  simp only [execPointerLinkFault, State.settled_of_not_due hd, readCharacter_bits]
  cases hon : s.pu.receiver.on ch with
  | faulted r => exact absurd hon (h r)
  | kept r | completes bytes => rfl

/-- A character without its stop bit is discarded in every state of the receiver (R135). -/
theorem on_of_no_stop (r : Receiver) (data : Byte) (marker : Bool) : r.on ⟨data, marker, false⟩ = .faulted .waiting := rfl

/-- A character inside a report, while bytes of it are to come (R135). -/
theorem on_of_collecting {bytes : List Byte} (h : bytes.length < 4) (data : Byte) :
    (Receiver.collecting bytes).on ⟨data, false, true⟩ = .kept (.collecting (bytes ++ [data])) := if_pos h

/-- The check byte of a report (R135). -/
theorem on_of_collected {bytes : List Byte} (h : 4 ≤ bytes.length) (data : Byte) :
    (Receiver.collecting bytes).on ⟨data, false, true⟩ = .completes bytes :=
  if_neg (Nat.not_lt.2 h)

/-- With the line high where a start bit would stand no row of the pointer link does anything (log entry 3). -/
theorem exec_of_no_character (hd : s.hp.softResetDue = false) {line : PrxBits} (hline : line.getLsbD 0 = true) {c : Instr}
    (hc : c = .pointerCharacterKept line ∨ c = .pointerLinkFault line ∨ c = .reportDiscarded line ∨ c = .contact line
      ∨ c = .lift line) : exec c s = .next s.judgeNote := by
  rcases hc with rfl | rfl | rfl | rfl | rfl
  · show execPointerCharacterKept line s = done s
    simp only [execPointerCharacterKept, State.settled_of_not_due hd, readCharacter_eq_none.2 hline]
  · show execPointerLinkFault line s = done s
    simp only [execPointerLinkFault, State.settled_of_not_due hd, readCharacter_eq_none.2 hline]
  · show execReportDiscarded line s = done s
    rw [execReportDiscarded, State.settled_of_not_due hd]
    exact onReport_of_no_character hline s _
  · show execContact line s = done s
    rw [execContact, State.settled_of_not_due hd]
    exact onReport_of_no_character hline s _
  · show execLift line s = done s
    rw [execLift, State.settled_of_not_due hd]
    exact onReport_of_no_character hline s _

/-- Every eleven levels that begin with a start bit spell a character (R188). -/
theorem exists_character {line : PrxBits} (h : line.getLsbD 0 = false) : ∃ ch : PrxChar, ch.bits = line := by
  refine ⟨⟨line.extractLsb' 1 8, line.getLsbD 9, line.getLsbD 10⟩, BitVec.eq_of_getLsbD_eq fun i hi => ?_⟩
  rw [PrxChar.getLsbD_bits]
  by_cases h0 : i = 0
  · subst h0; exact h.symm
  · by_cases h8 : i < 9
    · have hdata : (line.extractLsb' 1 8).getLsbD (i - 1) = line.getLsbD i := by
        rw [BitVec.getLsbD_extractLsb', decide_eq_true (by omega), Bool.true_and, show 1 + (i - 1) = i by omega]
      rw [if_neg h0, if_pos h8, hdata]
    · by_cases h9 : i = 9
      · subst h9; rfl
      · obtain rfl : i = 10 := by omega
        simp

end Characters

/-- Settles O57: the table of R135 by the receiver's state, then the levels bit by bit. -/
theorem receiverFramesCharacters : Obligations.ReceiverFramesCharacters := by
  refine ⟨fun data marker s hd => ?_, fun ch => ⟨?_, fun i hi => ?_, ?_, ?_, readCharacter_bits ch⟩,
    fun line => ⟨exists_character, fun hline s hd c hc => exec_of_no_character hd hline hc⟩⟩
  · intro kept faulted line
    refine ⟨fun hr => ?waiting, fun bytes hr => ⟨fun hlen => ?inside, ?interrupted⟩, ?unstopped, ?notKept⟩
    case waiting =>
      exact ⟨exec_characterKept_of_kept (ch := ⟨data, true, true⟩) hd (by rw [hr]; rfl),
        exec_linkFault_of_faulted (ch := ⟨data, false, true⟩) hd (by rw [hr]; rfl)⟩
    case inside =>
      exact exec_characterKept_of_kept (ch := ⟨data, false, true⟩) hd (by rw [hr]; exact on_of_collecting hlen data)
    case interrupted => exact exec_linkFault_of_faulted (ch := ⟨data, true, true⟩) hd (by rw [hr]; rfl)
    case unstopped => exact exec_linkFault_of_faulted (ch := ⟨data, marker, false⟩) hd (on_of_no_stop _ data marker)
    case notKept =>
      refine exec_characterKept_refused (ch := ⟨data, marker, false⟩) hd fun r hr => ?_
      rw [on_of_no_stop] at hr
      cases hr
  · rw [PrxChar.getLsbD_bits, if_pos rfl]
  · rw [PrxChar.getLsbD_bits, if_neg (Nat.succ_ne_zero i), if_pos (by omega), Nat.add_sub_cancel]
  · rw [PrxChar.getLsbD_bits]; rfl
  · rw [PrxChar.getLsbD_bits]; simp

/-! ### Reports (R136, R137, R155) -/

section Reports
variable {s : State} {bytes : List Byte} {check : Byte}

/-- A report that the pointer does not listen to (R137, R155). -/
theorem judgeReport_of_deaf (h : ¬(s.pu.enable = true ∧ s.hp.resetLine = .released)) : judgeReport s bytes check = .dropped := by
  refine if_pos ?_
  cases he : s.pu.enable with
  | false => exact .inl rfl
  | true =>
    cases hr : s.hp.resetLine with
    | asserted => exact .inr rfl
    | released => exact absurd ⟨he, hr⟩ h

/-- The judgement of a report that the pointer listens to (R136). -/
theorem judgeReport_of_listening (h : s.pu.enable = true ∧ s.hp.resetLine = .released) : judgeReport s bytes check =
    if check ≠ reportSum bytes then .link
    else (ReportKind.ofByte (byteAt bytes 0)).elim .link fun k =>
      if inArea s (reportPoint bytes) = true then .taken k (reportPoint bytes) else .range := by
  obtain ⟨he, hr⟩ := h
  rw [judgeReport, if_neg (by simp [he, hr])]
  cases ReportKind.ofByte (byteAt bytes 0) <;> rfl

/-- A kind byte that is none of the two (R188). -/
theorem reportKind_eq_none {b : Byte} (h : ¬(b = 1 ∨ b = 2)) : ReportKind.ofByte b = none := by
  rw [not_or] at h
  rw [ReportKind.ofByte, if_neg h.1, if_neg h.2]

theorem exists_reportKind {b : Byte} (h : b = 1 ∨ b = 2) : ∃ k, ReportKind.ofByte b = some k := by
  rcases h with rfl | rfl
  · exact ⟨.contact, rfl⟩
  · exact ⟨.lift, rfl⟩

theorem judgeReport_link (h : s.pu.enable = true ∧ s.hp.resetLine = .released)
    (hbad : check ≠ reportSum bytes ∨ ¬(byteAt bytes 0 = 1 ∨ byteAt bytes 0 = 2)) : judgeReport s bytes check = .link := by
  rw [judgeReport_of_listening h]
  by_cases hsum : check = reportSum bytes
  · rw [if_neg (by simp [hsum]), reportKind_eq_none (hbad.resolve_left (by simp [hsum]))]; rfl
  · exact if_pos hsum

theorem judgeReport_of_kind (h : s.pu.enable = true ∧ s.hp.resetLine = .released) (hsum : check = reportSum bytes)
    {k : ReportKind} (hk : ReportKind.ofByte (byteAt bytes 0) = some k) : judgeReport s bytes check =
      if inArea s (reportPoint bytes) = true then .taken k (reportPoint bytes) else .range := by
  rw [judgeReport_of_listening h, if_neg (by simp [hsum]), hk]
  rfl

/-- A report is taken only when it is listened to, its check byte is good and its point lies in the displayed area (R136). -/
theorem untaken_of_not (h : ¬((s.pu.enable = true ∧ s.hp.resetLine = .released) ∧ check = reportSum bytes
    ∧ inArea s (reportPoint bytes) = true)) : (judgeReport s bytes check).untaken = true := by
  by_cases hl : s.pu.enable = true ∧ s.hp.resetLine = .released
  · rw [judgeReport_of_listening hl]
    by_cases hsum : check = reportSum bytes
    · have hout : ¬inArea s (reportPoint bytes) = true := fun hin => h ⟨hl, hsum, hin⟩
      rw [if_neg (by simp [hsum])]
      cases ReportKind.ofByte (byteAt bytes 0) with
      | none => rfl
      | some k => rw [Option.elim_some, if_neg hout]; rfl
    · rw [if_pos hsum]; rfl
  · rw [judgeReport_of_deaf hl]; rfl

/-- The row of a report that is not taken (R136). -/
theorem exec_reportDiscarded_of_untaken (hd : s.hp.softResetDue = false) (hr : s.pu.receiver = .collecting bytes)
    (h4 : 4 ≤ bytes.length) {v : ReportVerdict} (hv : judgeReport s bytes check = v) (hu : v.untaken = true) :
    exec (.reportDiscarded (PrxChar.bits ⟨check, false, true⟩)) s = .next (reportEffect v s).judgeNote := by
  show execReportDiscarded _ s = done _
  rw [execReportDiscarded, State.settled_of_not_due hd, onReport_of_complete hr h4, hv, if_pos hu]

theorem exec_reportDiscarded_of_taken (hd : s.hp.softResetDue = false) (hr : s.pu.receiver = .collecting bytes)
    (h4 : 4 ≤ bytes.length) (hu : (judgeReport s bytes check).untaken = false) :
    exec (.reportDiscarded (PrxChar.bits ⟨check, false, true⟩)) s = .refused .reportTaken := by
  show execReportDiscarded _ s = _
  rw [execReportDiscarded, State.settled_of_not_due hd, onReport_of_complete hr h4, hu]
  rfl

/-- The row of a report of one kind. -/
def ReportKind.row (line : PrxBits) : ReportKind → Instr
  | .contact => .contact line
  | .lift => .lift line

theorem exec_report_row (k : ReportKind) (hd : s.hp.softResetDue = false) (hr : s.pu.receiver = .collecting bytes)
    (h4 : 4 ≤ bytes.length) : exec (k.row (PrxChar.bits ⟨check, false, true⟩)) s =
      if ReportKind.ofByte (byteAt bytes 0) = some k then .next (reportEffect (judgeReport s bytes check) s).judgeNote
      else .refused .reportOfOtherKind := by
  have hrow : exec (k.row (PrxChar.bits ⟨check, false, true⟩)) s
      = completeReport k (PrxChar.bits ⟨check, false, true⟩) s.settled := by cases k <;> rfl
  rw [hrow, State.settled_of_not_due hd, completeReport, onReport_of_complete hr h4]
  rfl

theorem reportKind_contact_iff {b : Byte} : ReportKind.ofByte b = some .contact ↔ b = 1 := by
  refine ⟨fun h => ?_, fun h => by subst h; rfl⟩
  by_contra h1
  rw [ReportKind.ofByte, if_neg h1] at h
  split at h <;> cases h

theorem reportKind_lift_iff {b : Byte} : ReportKind.ofByte b = some .lift ↔ b = 2 := by
  refine ⟨fun h => ?_, fun h => by subst h; rfl⟩
  by_contra h2
  rw [ReportKind.ofByte, if_neg h2] at h
  split at h <;> cases h

end Reports

/-- Settles O58, judgement by judgement. -/
theorem reportsAreJudged : Obligations.ReportsAreJudged := by
  intro kind x high low check s hd hr line listens known inside
  have h4 : 4 ≤ [kind, x, high, low].length := le_refl 4
  have hinside : inArea s (reportPoint [kind, x, high, low]) = true ↔ inside := inArea_iff
  refine ⟨fun hdeaf => ?dropped, fun hl hbad => ?link, fun hl hsum hk hout => ?range, fun hl hsum hk hin => ?taken,
    fun hnot => ⟨fun hk => ?contact, fun hk => ?lift⟩, fun hk => ?notContact, fun hk => ?notLift⟩
  case dropped => exact exec_reportDiscarded_of_untaken hd hr h4 (judgeReport_of_deaf hdeaf) rfl
  case link => exact exec_reportDiscarded_of_untaken hd hr h4 (judgeReport_link (bytes := [kind, x, high, low]) hl hbad) rfl
  case range =>
    obtain ⟨k, hkind⟩ := exists_reportKind hk
    have hv := judgeReport_of_kind (bytes := [kind, x, high, low]) hl hsum hkind
    rw [if_neg fun h => hout (hinside.1 h)] at hv
    exact exec_reportDiscarded_of_untaken hd hr h4 hv rfl
  case taken =>
    obtain ⟨k, hkind⟩ := exists_reportKind hk
    have hv := judgeReport_of_kind (bytes := [kind, x, high, low]) hl hsum hkind
    rw [if_pos (hinside.2 hin)] at hv
    exact exec_reportDiscarded_of_taken hd hr h4 (by rw [hv]; rfl)
  case contact =>
    have hu : (judgeReport s [kind, x, high, low] check).untaken = true :=
      untaken_of_not fun ⟨hl, hsum, hin⟩ => hnot ⟨hl, hsum, hinside.1 hin⟩
    rw [exec_reportDiscarded_of_untaken hd hr h4 rfl hu]
    exact (exec_report_row .contact hd hr h4).trans (if_pos (reportKind_contact_iff.2 hk))
  case lift =>
    have hu : (judgeReport s [kind, x, high, low] check).untaken = true :=
      untaken_of_not fun ⟨hl, hsum, hin⟩ => hnot ⟨hl, hsum, hinside.1 hin⟩
    rw [exec_reportDiscarded_of_untaken hd hr h4 rfl hu]
    exact (exec_report_row .lift hd hr h4).trans (if_pos (reportKind_lift_iff.2 hk))
  case notContact =>
    exact (exec_report_row .contact hd hr h4).trans (if_neg fun h => hk (reportKind_contact_iff.1 h))
  case notLift => exact (exec_report_row .lift hd hr h4).trans (if_neg fun h => hk (reportKind_lift_iff.1 h))

/-! ### Taken reports (R143, R144, R145) -/

/-- The state in which a completed report acts: the receiver is WAITING again (R135). -/
def State.heard (s : State) : State := s.setPu { s.pu with receiver := .waiting }

/-- The receiver plays no part in the hit test (R141). -/
theorem hitTest_heard (s : State) (p : Point) : hitTest s.heard p = hitTest s p :=
  hitTest_congr (s := s) (t := s.heard) rfl rfl rfl rfl p

section Taken
variable {s : State} {p : Point}

theorem takeContact_of_hit {h : Handle} (hc : s.pu.contact = .up) (hh : hitTest s p = .hit h) : takeContact p s =
    (s.setSlots (mapTouch s.rgt.slots h.slot (·.pressedAt p))).setPu { s.pu with silence := 0, contact := .captured h } := by
  simp only [takeContact, hc, hh]

theorem takeContact_of_miss (hc : s.pu.contact = .up) (hh : ∀ h, hitTest s p ≠ .hit h) :
    takeContact p s = s.setPu { s.pu with silence := 0, contact := .unclaimed } := by
  simp only [takeContact, hc]
  cases hw : hitTest s p with
  | hit h => exact absurd hw (hh h)
  | none | blocked => rfl

theorem takeContact_of_captured {h : Handle} (hc : s.pu.contact = .captured h) : takeContact p s =
    (s.setSlots (mapTouch s.rgt.slots h.slot (·.movedTo p (insideRegion s.rgt.slots h p)))).setPu
      { s.pu with silence := 0, contact := .captured h } := by
  rw [takeContact, ← hc]
  simp only [hc]

theorem takeContact_of_unclaimed (hc : s.pu.contact = .unclaimed) :
    takeContact p s = s.setPu { s.pu with silence := 0, contact := .unclaimed } := by
  rw [takeContact, ← hc]
  simp only [hc]

theorem takeLift_of_not_captured (hc : s.pu.contact = .up ∨ s.pu.contact = .unclaimed) :
    takeLift p s = s.setPu { s.pu with silence := 0, contact := .up } := by
  rcases hc with hc | hc
  · rw [takeLift, ← hc]
    simp only [hc]
  · simp only [takeLift, hc]

theorem takeLift_of_captured {h : Handle} (hc : s.pu.contact = .captured h) : takeLift p s =
    (s.setSlots (mapTouch s.rgt.slots h.slot (·.liftedAt p (insideRegion s.rgt.slots h p)))).setPu
      { s.pu with silence := 0, contact := .up } := by
  simp only [takeLift, hc]

end Taken

/-- Settles O59: a report that is taken acts by the contact state. -/
theorem takenReportsActOnTheContact : Obligations.TakenReportsActOnTheContact := by
  intro x high low s hd he hrl hvalid hx hy contactLine liftLine p pu touched inside
  have hin : inArea s p = true := inArea_iff.2 ⟨hvalid, hx, hy⟩
  have hcontact (hr : s.pu.receiver = .collecting [1, x, high, low]) : exec (.contact contactLine) s =
      .next (takeContact p s.heard).judgeNote := by
    have hv := judgeReport_of_kind (bytes := [1, x, high, low]) (check := 1 + x + high + low) ⟨he, hrl⟩ rfl (k := .contact) rfl
    rw [if_pos (show inArea s (reportPoint [1, x, high, low]) = true from hin)] at hv
    refine (exec_report_row .contact hd hr (le_refl 4)).trans ((if_pos rfl).trans ?_)
    rw [hv]
    rfl
  have hlift (hr : s.pu.receiver = .collecting [2, x, high, low]) : exec (.lift liftLine) s =
      .next (takeLift p s.heard).judgeNote := by
    have hv := judgeReport_of_kind (bytes := [2, x, high, low]) (check := 2 + x + high + low) ⟨he, hrl⟩ rfl (k := .lift) rfl
    rw [if_pos (show inArea s (reportPoint [2, x, high, low]) = true from hin)] at hv
    refine (exec_report_row .lift hd hr (le_refl 4)).trans ((if_pos rfl).trans ?_)
    rw [hv]
    rfl
  refine ⟨fun hr => ⟨fun h hc hh => ?hit, fun hc hh => ?miss, fun h hc => ?moved, fun hc => ?unclaimed⟩,
    fun hr => ⟨fun hc => ?loose, fun h hc hi => ?released, fun h hc hi => ?releasedAway⟩⟩
  case hit => rw [hcontact hr, takeContact_of_hit (s := s.heard) (h := h) hc ((hitTest_heard s p).trans hh)]; rfl
  case miss => rw [hcontact hr, takeContact_of_miss (s := s.heard) hc (by rw [hitTest_heard]; exact hh)]; rfl
  case moved => rw [hcontact hr, takeContact_of_captured (s := s.heard) (h := h) hc]; rfl
  case unclaimed => rw [hcontact hr, takeContact_of_unclaimed (s := s.heard) hc]; rfl
  case loose => rw [hlift hr, takeLift_of_not_captured (s := s.heard) hc]; rfl
  case released =>
    have hi' : insideRegion s.heard.rgt.slots h p = true := hi
    rw [hlift hr, takeLift_of_captured (s := s.heard) (h := h) hc, hi']
    rfl
  case releasedAway =>
    have hi' : insideRegion s.heard.rgt.slots h p = false := hi
    rw [hlift hr, takeLift_of_captured (s := s.heard) (h := h) hc, hi']
    rfl

/-! ### Rows that are not the event (log entry 3) -/

section Misplaced
variable {s : State} {check : Byte} {sdi : SdiBits}

/-- While STOPPED no tick is raised (R155). -/
theorem exec_tick_of_stopped (hd : s.hp.softResetDue = false) (hs : s.se.scan = .stopped) (hto : s.se.tickOwed = false) :
    exec .pointerTick s = .next s.judgeNote ∧ exec .contactTimeout s = .next s.judgeNote := by
  constructor
  · show execPointerTick s = done s
    simp only [execPointerTick, State.settled_of_not_due hd, hto, Bool.false_eq_true, if_false, hs, if_true]
  · show execContactTimeout s = done s
    simp only [execContactTimeout, State.settled_of_not_due hd, hto, Bool.false_eq_true, if_false, hs, if_true]

theorem exec_tick_refused (hd : s.hp.softResetDue = false) (hs : s.se.scan ≠ .stopped) (hto : s.se.tickOwed = false) :
    exec .pointerTick s = .refused .noTickOwed ∧ exec .contactTimeout s = .refused .noTickOwed := by
  constructor
  · show execPointerTick s = _
    simp only [execPointerTick, State.settled_of_not_due hd, hto, Bool.false_eq_true, if_false, if_neg hs]
  · show execContactTimeout s = _
    simp only [execContactTimeout, State.settled_of_not_due hd, hto, Bool.false_eq_true, if_false, if_neg hs]

/-- A character that completes no report is no row of a report's (R135). -/
theorem exec_report_refused (hd : s.hp.softResetDue = false) {ch : PrxChar} (h : ∀ bytes, s.pu.receiver.on ch ≠ .completes bytes)
    {c : Instr} (hc : c = .contact ch.bits ∨ c = .lift ch.bits ∨ c = .reportDiscarded ch.bits) :
    exec c s = .refused .noReportCompletes := by
  have hrow (act : List Byte → Byte → Host.Outcome State Fault Refusal) :
      onReport ch.bits s act = .refused .noReportCompletes := by
    rw [onReport, readCharacter_bits]
    cases hon : s.pu.receiver.on ch with
    | completes bytes => exact absurd hon (h bytes)
    | kept r | faulted r => simp only [hon]
  rcases hc with rfl | rfl | rfl
  · show execContact ch.bits s = _
    rw [execContact, State.settled_of_not_due hd]
    exact hrow _
  · show execLift ch.bits s = _
    rw [execLift, State.settled_of_not_due hd]
    exact hrow _
  · show execReportDiscarded ch.bits s = _
    rw [execReportDiscarded, State.settled_of_not_due hd]
    exact hrow _

/-- A character that begins a report completes none (R135). -/
theorem on_of_marker (r : Receiver) (data : Byte) (bytes : List Byte) : r.on ⟨data, true, true⟩ ≠ .completes bytes := by
  cases r with
  | waiting => exact fun h => nomatch h
  | collecting held => exact fun h => nomatch h

/-- Neither a request row nor FRAMING_FAULT is the event of a byte of a reply (R167). -/
theorem exec_row_of_replying (hd : s.hp.softResetDue = false) (hclk : Clocked check sdi s) {reply : List Byte} {sent : Nat}
    {soft : Bool} (h : s.hp.trans = .replying reply sent soft) (k : RequestKind) :
    exec (k.row sdi) s = .refused .notAtCheckByte ∧ exec (.framingFault sdi) s = .refused .notAtCheckByte := by
  constructor
  · rw [exec_row, State.settled_of_not_due hd, takeRequest, State.clock_of_clocked hclk, h]
  · show execFramingFault sdi s = _
    simp only [execFramingFault, State.settled_of_not_due hd, State.clock_of_clocked hclk, h]

/-- Nor are they the event of a byte of a request that is not its check byte. -/
theorem exec_row_of_early (hd : s.hp.softResetDue = false) (hclk : Clocked check sdi s) {f : Frame}
    (h : s.hp.trans = .receiving f) (hf : f.atCheckByte = false) (k : RequestKind) :
    exec (k.row sdi) s = .refused .notAtCheckByte ∧ exec (.framingFault sdi) s = .refused .notAtCheckByte := by
  constructor
  · rw [exec_row, State.settled_of_not_due hd, takeRequest, State.clock_of_clocked hclk, h]
    simp only [hf, Bool.false_eq_true, if_false]
  · show execFramingFault sdi s = _
    simp only [execFramingFault, State.settled_of_not_due hd, State.clock_of_clocked hclk, h, hf, Bool.false_eq_true, if_false]

theorem atCheckByte_eq_false {f : Frame}
    (h : f.kind = none ∨ f.length = none ∨ ∃ n, f.length = some n ∧ f.params.length ≠ n.toNat) : f.atCheckByte = false := by
  unfold Frame.atCheckByte
  split
  · next k n hk hn =>
    rcases h with h | h | ⟨m, hm, hne⟩
    · rw [hk] at h; cases h
    · rw [hn] at h; cases h
    · rw [hn] at hm
      cases hm
      exact beq_eq_false_iff_ne.2 hne
  · rfl

/-- The rows of a reply's bytes are not the event of a byte of a request (R167). -/
theorem exec_reply_of_receiving (hd : s.hp.softResetDue = false) (hclk : Clocked check sdi s) {f : Frame}
    (h : s.hp.trans = .receiving f) :
    exec .replyByteShifted s = .refused .notAtReplyByte ∧ exec .replyComplete s = .refused .notAtReplyCheck := by
  obtain ⟨hselect, hreset, hbits⟩ := hclk
  have hlen : s.hp.bits.length ≤ 8 := by
    have hall : (s.hp.bits ++ sdi).length = 8 := by rw [hbits]; rfl
    rw [List.length_append] at hall
    omega
  have hrest := State.clocked_restOfByte hselect hreset hlen
  constructor
  · show execReplyByteShifted s = _
    simp only [execReplyByteShifted, State.settled_of_not_due hd, State.clock_of_clocked hrest, h]
  · show execReplyComplete s = _
    simp only [execReplyComplete, State.settled_of_not_due hd, State.clock_of_clocked hrest, h]

end Misplaced

/-- Settles O60, row by row. -/
theorem rowsOutOfPlace : Obligations.RowsOutOfPlace := by
  intro s check data groups order hd line
  refine ⟨fun hs hto c hc => ?stopped, fun hs => ⟨fun y hp => ?inFrame, fun hp => ?lineStart, fun h => ?frameStart, fun h => ?retrace,
      fun hrun => ?running, fun hstop hlast hnext => ?stopPoint, fun hp => ?notInLine, fun hcol => ?lineFull, fun hcol => ?lineShort,
      fun hto => ?owed, fun hto => exec_tick_refused hd hs hto⟩,
    fun hr => ?noReport, fun c hc => exec_report_refused (ch := ⟨check, true, true⟩) hd (on_of_marker _ check) hc,
    fun hr => ?waiting, fun bytes hr => ⟨?marked, ?joined, fun hlen => ?completed⟩,
    fun sdi hclk => ⟨fun reply sent soft h k => exec_row_of_replying hd hclk h k, fun f h => ?receiving⟩⟩
  case stopped =>
    obtain ⟨htick, htimeout⟩ := exec_tick_of_stopped hd hs hto
    rcases hc with rfl | rfl | rfl | rfl | rfl | rfl | rfl | rfl
    · exact exec_frameStart_of_stopped hd hs
    · exact exec_lineStart_of_stopped hd hs
    · exact exec_cellIssue_of_stopped hd hs
    · exact exec_lineEnd_of_stopped hd hs
    · exact exec_retraceLine_of_stopped hd hs
    · exact exec_stopPoint_of_stopped hd hs
    · exact htick
    · exact htimeout
  case inFrame =>
    have hnext : s.se.nextFrame = none := by rcases hp with hp | hp <;> rw [Se.nextFrame, hp]
    have hat : s.se.atStopPoint = false := by
      rw [Bool.eq_false_iff, ne_eq, atStopPoint_iff]
      rcases hp with hp | hp <;> simp [hp]
    refine ⟨exec_frameStart_refused hd hs (.inr hnext), exec_retraceLine_refused hd hs fun k hk => ?_,
      exec_stopPoint_refused hd hs (.inr hat)⟩
    rcases hp with hp | hp <;> rw [hp] at hk <;> cases hk
  case lineStart => exact exec_lineStart_refused hd hs fun y hy => absurd hy (hp y)
  case frameStart =>
    refine exec_frameStart_refused hd hs (h.imp_right ?_)
    rintro ⟨k, hp, hk⟩
    rw [Se.nextFrame, hp]
    exact if_neg hk
  case retrace =>
    refine exec_retraceLine_refused hd hs fun k hk ⟨hlt, hstop⟩ => ?_
    rcases h with hp | ⟨j, hp, hj⟩
    · rw [hp] at hk; cases hk
    · rw [hp] at hk
      cases hk
      rcases hj with hj | hj
      · exact absurd hlt (Nat.not_lt.2 hj)
      · exact hstop hj
  case running => exact exec_stopPoint_refused hd hs (.inl hrun)
  case stopPoint =>
    refine exec_stopPoint_refused hd hs (.inr ?_)
    rw [Bool.eq_false_iff, ne_eq, atStopPoint_iff]
    exact fun h => h.elim hlast hnext
  case notInLine =>
    exact ⟨exec_cellIssue_refused hd hs fun y hy => absurd hy (hp y), exec_lineEnd_refused hd hs fun y hy => absurd hy (hp y)⟩
  case lineFull => exact exec_cellIssue_refused hd hs fun _ _ => Nat.not_lt.2 hcol
  case lineShort => exact exec_lineEnd_refused hd hs fun _ _ => hcol
  case owed => exact exec_lineStart_refused hd hs fun _ _ => hto
  case noReport =>
    have hon : ∀ bytes, s.pu.receiver.on ⟨check, false, true⟩ ≠ .completes bytes := by
      intro bytes h
      rcases hr with hr | ⟨held, hr, hlen⟩
      · rw [hr] at h; cases h
      · rw [hr, on_of_collecting hlen] at h; cases h
    exact ⟨exec_report_refused hd hon (.inl rfl), exec_report_refused hd hon (.inr (.inl rfl)),
      exec_report_refused hd hon (.inr (.inr rfl))⟩
  case waiting =>
    refine ⟨exec_characterKept_refused (ch := ⟨check, false, true⟩) hd fun r h => ?_,
      exec_linkFault_refused (ch := ⟨check, true, true⟩) hd fun r h => ?_⟩
    · rw [hr] at h; cases h
    · rw [hr] at h; cases h
  case marked =>
    refine exec_characterKept_refused (ch := ⟨check, true, true⟩) hd fun r h => ?_
    rw [hr] at h; cases h
  case joined =>
    refine exec_linkFault_refused (ch := ⟨check, false, true⟩) hd fun r h => ?_
    rw [hr] at h
    by_cases hlen : bytes.length < 4
    · rw [on_of_collecting hlen] at h; cases h
    · rw [on_of_collected (Nat.not_lt.1 hlen)] at h; cases h
  case completed =>
    refine exec_characterKept_refused (ch := ⟨check, false, true⟩) hd fun r h => ?_
    rw [hr, on_of_collected hlen] at h; cases h
  case receiving =>
    obtain ⟨hshifted, hcomplete⟩ := exec_reply_of_receiving hd hclk h
    exact ⟨hshifted, hcomplete, fun hf k => exec_row_of_early hd hclk h (atCheckByte_eq_false hf) k⟩

end Sys2Proof.Machine
end
